-- ==== Sys2Proof/Word.lean ====
section
/-! DEFINITION. The word types of the core (00_scope.md R7, 10_state.md R20). -/

namespace Sys2Proof

/-- A register, a timer or a cell of RAM: 8 bits. -/
abbrev Byte := BitVec 8

/-- An instruction word, `PC`, `OP` or a stack entry: 16 bits. -/
abbrev Word := BitVec 16

/-- The index register `I` and the immediate `nnn`: 12 bits (10_state.md R23, 30_encoding.md R73). -/
abbrev Index := BitVec 12

/-- The number of a general register, `V0` to `VF` (10_state.md R21). -/
abbrev Reg := Fin 16

/-- The 4-bit count `n` of DXYN, 00BN and 00CN (30_encoding.md R73). -/
abbrev Count := Fin 16

/-- A graphics buffer: its rows from the top, each row its pixels from the left, set or clear (10_state.md R31). -/
abbrev Pixels := List (List Bool)

end Sys2Proof
end

