-- ==== Sys2Proof/Config.lean ====
section
/-! DEFINITION. The build parameters the spec leaves open (00_scope.md R5), and the model's free values. -/

namespace Sys2Proof

/-- Which register the shifts 8XY6 and 8XYE read: `SHIFT_SRC` (00_scope.md R5, D11). -/
inductive ShiftSrc where
  | x
  | y
  deriving DecidableEq, Repr

/-- Whether FX55 and FX65 advance `I`: `LS_I_INC` (00_scope.md R5, D12). -/
inductive LsIInc where
  | none
  | xPlusOne
  deriving DecidableEq, Repr

/-- The parameters of one build of the core, as plain data (00_scope.md R5). They are arguments of the model:
`State.cfg` carries them, nothing ever writes them, and a statement about every state holds for every build.
DESIGN CHOICE (log 1), safe. -/
structure Config where
  /-- `EXT`: the Super-CHIP opcodes are present (R2, D2). -/
  ext : Bool
  /-- `SHIFT_SRC` (D11). -/
  shiftSrc : ShiftSrc
  /-- `LS_I_INC` (D12). -/
  lsIInc : LsIInc
  /-- `FONT`: the 80 bytes of RAM from 0x000 at reset (D22). -/
  font : Vector Byte 80
  /-- `BIG_FONT`: the 160 bytes of RAM from 0x050 at reset when `ext` (D22). -/
  bigFont : Vector Byte 160
  deriving DecidableEq, Repr

/-- A free value: the big font of the build the model constructs; the spec gives `BIG_FONT` no value (U14).
DESIGN CHOICE (log 4), safe: no proof can see a byte of it. -/
opaque Config.openBigFont : Vector Byte 160

/-- A free value: the random byte of the draw with this number (60_exceptions.md R260, U9).
DESIGN CHOICE (log 6), safe: no proof can see a value of it. -/
opaque Config.drawByte : Nat → Byte

/-- A free value: `RESCALE_UP`, pixel by pixel. `rescaleUpPixel g r c` is the pixel in row `r`, column `c` of the
128x64 buffer made from the 64x32 buffer `g` (00_scope.md R5, D17, U15). DESIGN CHOICE (log 5), safe. -/
opaque Config.rescaleUpPixel : Pixels → Nat → Nat → Bool

/-- A free value: `RESCALE_DOWN`, pixel by pixel. `rescaleDownPixel g r c` is the pixel in row `r`, column `c` of the
64x32 buffer made from the 128x64 buffer `g` (00_scope.md R5, D17, U15). DESIGN CHOICE (log 5), safe. -/
opaque Config.rescaleDownPixel : Pixels → Nat → Nat → Bool

end Sys2Proof
end

