-- ==== Sys2Proof/Machine/Build.lean ====
section
/-! DEFINITION. The reference configuration of the spec (00_scope.md R5) and the build that `State.reset` constructs. -/

namespace Sys2Proof.Machine

/-- The conventional small font, glyphs 0 to F of 5 bytes each (93_implementation_defined.md G4).
PRESUMED (log 3), unsafe: general knowledge of the spec's writer; no statement rests on these bytes. -/
def rcFont : Vector Byte 80 :=
  #v[0xF0, 0x90, 0x90, 0x90, 0xF0,  0x20, 0x60, 0x20, 0x20, 0x70,
     0xF0, 0x10, 0xF0, 0x80, 0xF0,  0xF0, 0x10, 0xF0, 0x10, 0xF0,
     0x90, 0x90, 0xF0, 0x10, 0x10,  0xF0, 0x80, 0xF0, 0x10, 0xF0,
     0xF0, 0x80, 0xF0, 0x90, 0xF0,  0xF0, 0x10, 0x20, 0x40, 0x40,
     0xF0, 0x90, 0xF0, 0x90, 0xF0,  0xF0, 0x90, 0xF0, 0x10, 0xF0,
     0xF0, 0x90, 0xF0, 0x90, 0x90,  0xE0, 0x90, 0xE0, 0x90, 0xE0,
     0xF0, 0x80, 0x80, 0x80, 0xF0,  0xE0, 0x90, 0x90, 0x90, 0xE0,
     0xF0, 0x80, 0xF0, 0x80, 0xF0,  0xF0, 0x80, 0xF0, 0x80, 0x80]

/-- The reference configuration `RC` (00_scope.md R5); `BIG_FONT` is not used by it. -/
def referenceBuild : Config :=
  { ext := false, shiftSrc := .x, lsIInc := .none, font := rcFont, bigFont := Config.openBigFont }

/-- The build that `State.reset` constructs: `RC` with the Super-CHIP opcodes present, so that every row of the opcode
table runs. DESIGN CHOICE (log 2), unsafe: `EXT` is OPEN in the spec; statements hold for every build instead. -/
def constructionBuild : Config := { referenceBuild with ext := true }

end Sys2Proof.Machine
end

