-- ==== Sys2Proof/Syntax.lean ====
section
/-! DEFINITION. The instructions: one constructor per row of spec/opcode_table.json, in its order (30_encoding.md R74). -/

namespace Sys2Proof

/-- The 44 instructions, each with the operand fields of its format (30_encoding.md R72). -/
inductive Instr where
  /-- `00E0` CLS -/
  | cls
  /-- `00EE` RET -/
  | ret
  /-- `00FB` SCR (ext) -/
  | scr
  /-- `00FC` SCL (ext) -/
  | scl
  /-- `00FE` LOW (ext) -/
  | low
  /-- `00FF` HIGH (ext) -/
  | high
  /-- `00BN` SCU n (ext) -/
  | scu (n : Count)
  /-- `00CN` SCD n (ext) -/
  | scd (n : Count)
  /-- `1NNN` JP nnn -/
  | jp (nnn : Index)
  /-- `2NNN` CALL nnn -/
  | call (nnn : Index)
  /-- `3XKK` SE Vx, kk -/
  | seImm (x : Reg) (kk : Byte)
  /-- `4XKK` SNE Vx, kk -/
  | sneImm (x : Reg) (kk : Byte)
  /-- `5XY0` SE Vx, Vy -/
  | seReg (x y : Reg)
  /-- `6XKK` LD Vx, kk -/
  | ldImm (x : Reg) (kk : Byte)
  /-- `7XKK` ADD Vx, kk -/
  | addImm (x : Reg) (kk : Byte)
  /-- `8XY0` LD Vx, Vy -/
  | ldReg (x y : Reg)
  /-- `8XY1` OR Vx, Vy -/
  | orReg (x y : Reg)
  /-- `8XY2` AND Vx, Vy -/
  | andReg (x y : Reg)
  /-- `8XY3` XOR Vx, Vy -/
  | xorReg (x y : Reg)
  /-- `8XY4` ADD Vx, Vy -/
  | addReg (x y : Reg)
  /-- `8XY5` SUB Vx, Vy -/
  | sub (x y : Reg)
  /-- `8XY6` SHR Vx, Vy -/
  | shr (x y : Reg)
  /-- `8XY7` SUBN Vx, Vy -/
  | subn (x y : Reg)
  /-- `8XYE` SHL Vx, Vy -/
  | shl (x y : Reg)
  /-- `9XY0` SNE Vx, Vy -/
  | sneReg (x y : Reg)
  /-- `ANNN` LD I, nnn -/
  | ldI (nnn : Index)
  /-- `BNNN` JP V0, nnn -/
  | jpV0 (nnn : Index)
  /-- `CXKK` RND Vx, kk -/
  | rnd (x : Reg) (kk : Byte)
  /-- `DXY0` DRW Vx, Vy, 0 (ext) -/
  | drw16 (x y : Reg)
  /-- `DXYN` DRW Vx, Vy, n -/
  | drw (x y : Reg) (n : Count)
  /-- `EX9E` SKP Vx -/
  | skp (x : Reg)
  /-- `EXA1` SKNP Vx -/
  | sknp (x : Reg)
  /-- `FX07` LD Vx, DT -/
  | ldVxDT (x : Reg)
  /-- `FX0A` LD Vx, K -/
  | ldK (x : Reg)
  /-- `FX15` LD DT, Vx -/
  | ldDT (x : Reg)
  /-- `FX18` LD ST, Vx -/
  | ldST (x : Reg)
  /-- `FX1E` ADD I, Vx -/
  | addI (x : Reg)
  /-- `FX29` LD F, Vx -/
  | ldF (x : Reg)
  /-- `FX30` LD HF, Vx (ext) -/
  | ldHF (x : Reg)
  /-- `FX33` LD B, Vx -/
  | ldB (x : Reg)
  /-- `FX55` LD [I], Vx -/
  | ldMemStore (x : Reg)
  /-- `FX65` LD Vx, [I] -/
  | ldMemLoad (x : Reg)
  /-- `FX75` LD R, Vx (ext) -/
  | ldRStore (x : Reg)
  /-- `FX85` LD Vx, R (ext) -/
  | ldRLoad (x : Reg)
  deriving DecidableEq, Repr

end Sys2Proof
end

