-- ==== Sys2Proof/WellFormed.lean ====
section
/-! DEFINITION. Which instruction terms a build of the core can be given. The widths of the operand fields are in their
types; what is left to check is `EXT` (46_extended.md R210) and the one word two rows share (30_encoding.md R75). -/

namespace Sys2Proof

/-- The well-formed terms of a build: an extended instruction needs `EXT`; with `EXT`, `DRW` with `n = 0` is no
instruction of its own, its word being `DXY0` (30_encoding.md R75 (a)). -/
def WellFormed (ext : Bool) (i : Instr) : Bool :=
  match i with
  | .scr | .scl | .low | .high => ext
  | .scu _ | .scd _ => ext
  | .drw16 _ _ => ext
  | .ldHF _ | .ldRStore _ | .ldRLoad _ => ext
  | .drw _ _ n => !ext || n != 0
  | .cls | .ret => true
  | .jp _ | .call _ | .ldI _ | .jpV0 _ => true
  | .seImm _ _ | .sneImm _ _ | .ldImm _ _ | .addImm _ _ | .rnd _ _ => true
  | .seReg _ _ | .sneReg _ _ | .ldReg _ _ | .orReg _ _ | .andReg _ _ | .xorReg _ _ => true
  | .addReg _ _ | .sub _ _ | .shr _ _ | .subn _ _ | .shl _ _ => true
  | .skp _ | .sknp _ | .ldVxDT _ | .ldK _ | .ldDT _ | .ldST _ => true
  | .addI _ | .ldF _ | .ldB _ | .ldMemStore _ | .ldMemLoad _ => true

end Sys2Proof
end

