-- ==== Sys2Proof/Decode.lean ====
section
/-! DEFINITION. Decoding, by the opcode map of 30_encoding.md R74 read top to bottom, and the encoder after it. -/

namespace Sys2Proof

/-- Nibble `k` of a word, 0 the lowest (00_scope.md R12): `(op >> 4k) & 0xF`. -/
def nibble (w : Word) (k : Nat) : Fin 16 := Fin.ofNat 16 (w.toNat >>> (4 * k))

/-- The operand fields of a word, extracted whatever it decodes to (30_encoding.md R71). -/
structure Fields where
  x : Reg
  y : Reg
  n : Count
  nnn : Index
  kk : Byte
  deriving DecidableEq, Repr

/-- The fields of a word: x bits 11:8, y bits 7:4, n bits 3:0, nnn bits 11:0, kk bits 7:0 (30_encoding.md R71). -/
def fieldsOf (w : Word) : Fields :=
  { x := nibble w 2, y := nibble w 1, n := nibble w 0,
    nnn := BitVec.ofNat 12 w.toNat, kk := BitVec.ofNat 8 w.toNat }

/-- One row of the opcode map (30_encoding.md R74). A pattern nibble is a fixed digit, or `none` where it belongs to a
field; `ext` rows are enabled only when `EXT = true`. -/
structure Row where
  mnemonic : String
  p3 : Option (Fin 16)
  p2 : Option (Fin 16)
  p1 : Option (Fin 16)
  p0 : Option (Fin 16)
  ext : Bool
  build : Fields → Instr

/-- A nibble fits a pattern nibble. -/
def nibbleFits (p : Option (Fin 16)) (d : Fin 16) : Bool :=
  match p with
  | none => true
  | some q => d == q

/-- The word matches the row's pattern. -/
def rowMatches (r : Row) (w : Word) : Bool :=
  nibbleFits r.p3 (nibble w 3) && nibbleFits r.p2 (nibble w 2) &&
    nibbleFits r.p1 (nibble w 1) && nibbleFits r.p0 (nibble w 0)

/-- The bits a pattern nibble fixes, in the mask column of R74. -/
def nibbleMask (p : Option (Fin 16)) : Nat := if p.isSome then 15 else 0

/-- The mask column of R74. -/
def rowMask (r : Row) : Nat :=
  nibbleMask r.p3 * 4096 + nibbleMask r.p2 * 256 + nibbleMask r.p1 * 16 + nibbleMask r.p0

/-- The match column of R74. -/
def rowValue (r : Row) : Nat :=
  (r.p3.getD 0).val * 4096 + (r.p2.getD 0).val * 256 + (r.p1.getD 0).val * 16 + (r.p0.getD 0).val

/-- Class 0 (30_encoding.md R74). -/
def rowsClass0 : List Row :=
  [ ⟨"CLS", some 0, some 0, some 0xE, some 0, false, fun _ => .cls⟩,
    ⟨"RET", some 0, some 0, some 0xE, some 0xE, false, fun _ => .ret⟩,
    ⟨"SCR", some 0, some 0, some 0xF, some 0xB, true, fun _ => .scr⟩,
    ⟨"SCL", some 0, some 0, some 0xF, some 0xC, true, fun _ => .scl⟩,
    ⟨"LOW", some 0, some 0, some 0xF, some 0xE, true, fun _ => .low⟩,
    ⟨"HIGH", some 0, some 0, some 0xF, some 0xF, true, fun _ => .high⟩,
    ⟨"SCU", some 0, some 0, some 0xB, none, true, fun f => .scu f.n⟩,
    ⟨"SCD", some 0, some 0, some 0xC, none, true, fun f => .scd f.n⟩ ]

/-- Classes 1 to 7 (30_encoding.md R74). -/
def rowsClass1To7 : List Row :=
  [ ⟨"JP", some 1, none, none, none, false, fun f => .jp f.nnn⟩,
    ⟨"CALL", some 2, none, none, none, false, fun f => .call f.nnn⟩,
    ⟨"SE_imm", some 3, none, none, none, false, fun f => .seImm f.x f.kk⟩,
    ⟨"SNE_imm", some 4, none, none, none, false, fun f => .sneImm f.x f.kk⟩,
    ⟨"SE_reg", some 5, none, none, some 0, false, fun f => .seReg f.x f.y⟩,
    ⟨"LD_imm", some 6, none, none, none, false, fun f => .ldImm f.x f.kk⟩,
    ⟨"ADD_imm", some 7, none, none, none, false, fun f => .addImm f.x f.kk⟩ ]

/-- Class 8 (30_encoding.md R74). -/
def rowsClass8 : List Row :=
  [ ⟨"LD_reg", some 8, none, none, some 0, false, fun f => .ldReg f.x f.y⟩,
    ⟨"OR", some 8, none, none, some 1, false, fun f => .orReg f.x f.y⟩,
    ⟨"AND", some 8, none, none, some 2, false, fun f => .andReg f.x f.y⟩,
    ⟨"XOR", some 8, none, none, some 3, false, fun f => .xorReg f.x f.y⟩,
    ⟨"ADD_reg", some 8, none, none, some 4, false, fun f => .addReg f.x f.y⟩,
    ⟨"SUB", some 8, none, none, some 5, false, fun f => .sub f.x f.y⟩,
    ⟨"SHR", some 8, none, none, some 6, false, fun f => .shr f.x f.y⟩,
    ⟨"SUBN", some 8, none, none, some 7, false, fun f => .subn f.x f.y⟩,
    ⟨"SHL", some 8, none, none, some 0xE, false, fun f => .shl f.x f.y⟩ ]

/-- Classes 9 to E (30_encoding.md R74); `DRW16` stands before `DRW` (R75). -/
def rowsClass9ToE : List Row :=
  [ ⟨"SNE_reg", some 9, none, none, some 0, false, fun f => .sneReg f.x f.y⟩,
    ⟨"LD_I", some 0xA, none, none, none, false, fun f => .ldI f.nnn⟩,
    ⟨"JP_V0", some 0xB, none, none, none, false, fun f => .jpV0 f.nnn⟩,
    ⟨"RND", some 0xC, none, none, none, false, fun f => .rnd f.x f.kk⟩,
    ⟨"DRW16", some 0xD, none, none, some 0, true, fun f => .drw16 f.x f.y⟩,
    ⟨"DRW", some 0xD, none, none, none, false, fun f => .drw f.x f.y f.n⟩,
    ⟨"SKP", some 0xE, none, some 9, some 0xE, false, fun f => .skp f.x⟩,
    ⟨"SKNP", some 0xE, none, some 0xA, some 1, false, fun f => .sknp f.x⟩ ]

/-- Class F (30_encoding.md R74). -/
def rowsClassF : List Row :=
  [ ⟨"LD_Vx_DT", some 0xF, none, some 0, some 7, false, fun f => .ldVxDT f.x⟩,
    ⟨"LD_K", some 0xF, none, some 0, some 0xA, false, fun f => .ldK f.x⟩,
    ⟨"LD_DT", some 0xF, none, some 1, some 5, false, fun f => .ldDT f.x⟩,
    ⟨"LD_ST", some 0xF, none, some 1, some 8, false, fun f => .ldST f.x⟩,
    ⟨"ADD_I", some 0xF, none, some 1, some 0xE, false, fun f => .addI f.x⟩,
    ⟨"LD_F", some 0xF, none, some 2, some 9, false, fun f => .ldF f.x⟩,
    ⟨"LD_HF", some 0xF, none, some 3, some 0, true, fun f => .ldHF f.x⟩,
    ⟨"LD_B", some 0xF, none, some 3, some 3, false, fun f => .ldB f.x⟩,
    ⟨"LD_mem_store", some 0xF, none, some 5, some 5, false, fun f => .ldMemStore f.x⟩,
    ⟨"LD_mem_load", some 0xF, none, some 6, some 5, false, fun f => .ldMemLoad f.x⟩,
    ⟨"LD_R_store", some 0xF, none, some 7, some 5, true, fun f => .ldRStore f.x⟩,
    ⟨"LD_R_load", some 0xF, none, some 8, some 5, true, fun f => .ldRLoad f.x⟩ ]

/-- The opcode map, top to bottom (30_encoding.md R74). -/
def opcodeRows : List Row :=
  rowsClass0 ++ rowsClass1To7 ++ rowsClass8 ++ rowsClass9ToE ++ rowsClassF

/-- The first enabled row that the word matches, if any (30_encoding.md R74). -/
def decodeRow (ext : Bool) (w : Word) : Option Row :=
  opcodeRows.find? fun r => (ext || !r.ext) && rowMatches r w

/-- The instruction a word stands for in a build; `none` for an unknown word (30_encoding.md R74 to R76). -/
def decodeWord (ext : Bool) (w : Word) : Option Instr :=
  (decodeRow ext w).map fun r => r.build (fieldsOf w)

/-- Why bytes are no instruction. -/
inductive DecodeError where
  /-- Fewer than two bytes are left (30_encoding.md R70). -/
  | truncated
  /-- No enabled row matches the word (30_encoding.md R76). -/
  | unknownOpcode (w : Word)
  deriving DecidableEq, Repr

/-- The word two bytes hold, the byte at the lower address in bits 15:8 (20_memory.md R51). -/
def wordOfBytes (hi lo : Byte) : Word := hi ++ lo

/-- The two bytes of a word, in address order (20_memory.md R51). -/
def bytesOfWord (w : Word) : List Byte := [w.extractLsb' 8 8, w.extractLsb' 0 8]

/-- The instruction at the head of some bytes, with the bytes after it. An instruction is always 2 bytes
(30_encoding.md R70, R77). -/
def decode (ext : Bool) (bytes : List Byte) : Except DecodeError (Instr × List Byte) :=
  match bytes with
  | hi :: lo :: rest =>
    match decodeWord ext (wordOfBytes hi lo) with
    | some i => .ok (i, rest)
    | none => .error (.unknownOpcode (wordOfBytes hi lo))
  | _ => .error .truncated

/-- A word from its four nibbles, the class nibble first. -/
def wordOfNibbles (c x y n : Fin 16) : Word :=
  BitVec.ofNat 16 (c.val * 4096 + x.val * 256 + y.val * 16 + n.val)

/-- A word of format `NNN` (30_encoding.md R72). -/
def wordNNN (c : Fin 16) (nnn : Index) : Word := BitVec.ofNat 16 (c.val * 4096 + nnn.toNat)

/-- A word of format `XKK` (30_encoding.md R72). -/
def wordXKK (c x : Fin 16) (kk : Byte) : Word := BitVec.ofNat 16 (c.val * 4096 + x.val * 256 + kk.toNat)

/-- The word of an instruction: the pattern column of 30_encoding.md R74 with the operand fields filled in. -/
def encodeWord (i : Instr) : Word :=
  match i with
  | .cls => wordOfNibbles 0 0 0xE 0
  | .ret => wordOfNibbles 0 0 0xE 0xE
  | .scr => wordOfNibbles 0 0 0xF 0xB
  | .scl => wordOfNibbles 0 0 0xF 0xC
  | .low => wordOfNibbles 0 0 0xF 0xE
  | .high => wordOfNibbles 0 0 0xF 0xF
  | .scu n => wordOfNibbles 0 0 0xB n
  | .scd n => wordOfNibbles 0 0 0xC n
  | .jp nnn => wordNNN 1 nnn
  | .call nnn => wordNNN 2 nnn
  | .seImm x kk => wordXKK 3 x kk
  | .sneImm x kk => wordXKK 4 x kk
  | .seReg x y => wordOfNibbles 5 x y 0
  | .ldImm x kk => wordXKK 6 x kk
  | .addImm x kk => wordXKK 7 x kk
  | .ldReg x y => wordOfNibbles 8 x y 0
  | .orReg x y => wordOfNibbles 8 x y 1
  | .andReg x y => wordOfNibbles 8 x y 2
  | .xorReg x y => wordOfNibbles 8 x y 3
  | .addReg x y => wordOfNibbles 8 x y 4
  | .sub x y => wordOfNibbles 8 x y 5
  | .shr x y => wordOfNibbles 8 x y 6
  | .subn x y => wordOfNibbles 8 x y 7
  | .shl x y => wordOfNibbles 8 x y 0xE
  | .sneReg x y => wordOfNibbles 9 x y 0
  | .ldI nnn => wordNNN 0xA nnn
  | .jpV0 nnn => wordNNN 0xB nnn
  | .rnd x kk => wordXKK 0xC x kk
  | .drw16 x y => wordOfNibbles 0xD x y 0
  | .drw x y n => wordOfNibbles 0xD x y n
  | .skp x => wordOfNibbles 0xE x 9 0xE
  | .sknp x => wordOfNibbles 0xE x 0xA 1
  | .ldVxDT x => wordOfNibbles 0xF x 0 7
  | .ldK x => wordOfNibbles 0xF x 0 0xA
  | .ldDT x => wordOfNibbles 0xF x 1 5
  | .ldST x => wordOfNibbles 0xF x 1 8
  | .addI x => wordOfNibbles 0xF x 1 0xE
  | .ldF x => wordOfNibbles 0xF x 2 9
  | .ldHF x => wordOfNibbles 0xF x 3 0
  | .ldB x => wordOfNibbles 0xF x 3 3
  | .ldMemStore x => wordOfNibbles 0xF x 5 5
  | .ldMemLoad x => wordOfNibbles 0xF x 6 5
  | .ldRStore x => wordOfNibbles 0xF x 7 5
  | .ldRLoad x => wordOfNibbles 0xF x 8 5

/-- The bytes of an instruction, in address order (20_memory.md R51). -/
def encode (i : Instr) : List Byte := bytesOfWord (encodeWord i)

/-- The word that the opcode table numbers by its bits: bit 0 is the least significant, bits from `nbits` up are 0. -/
def tableWord (nbits w : Nat) : Word := BitVec.ofNat 16 (w % 2 ^ nbits)

/-- The instruction the decoder of the constructed build reads from a word of the opcode table, laid out in memory
order. DESIGN CHOICE (logs 2, 18): that build has `EXT = true`, so a D-class word with `n = 0` is `DRW16`. -/
def decodeTableWord (nbits w : Nat) : Option Instr :=
  match decode Machine.constructionBuild.ext (bytesOfWord (tableWord nbits w)) with
  | .ok (i, _) => some i
  | .error _ => none

end Sys2Proof
end

