-- ==== Sys2Proof/Machine/Screen.lean ====
section
/-! DEFINITION. Operations on the graphics buffer `GFX` (10_state.md R31, 44_display.md R172, 46_extended.md). A pixel
outside the buffer reads as clear and a write to it is dropped; no run reaches such an access (log 22). -/

namespace Sys2Proof.Machine

/-- The buffer of `h` rows of `w` pixels whose pixel in row `r`, column `c` is `f r c`. -/
def Screen.build (w h : Nat) (f : Nat → Nat → Bool) : Pixels :=
  (List.range h).map fun r => (List.range w).map fun c => f r c

/-- The clear buffer of `h` rows of `w` pixels. -/
def Screen.blank (w h : Nat) : Pixels := List.replicate h (List.replicate w false)

/-- `GFX[r][c]` (10_state.md R31). -/
def Screen.pixel (g : Pixels) (r c : Nat) : Bool := (g.getD r []).getD c false

/-- `GFX[r][c] <- GFX[r][c] ^ 1`. -/
def Screen.flip (g : Pixels) (r c : Nat) : Pixels := g.modify r fun row => row.modify c not

/-- The buffer has `h` rows of `w` pixels (10_state.md R31). -/
abbrev Screen.shaped (w h : Nat) (g : Pixels) : Prop := g.length = h ∧ ∀ row ∈ g, row.length = w

/-- The flat row-major layout the host's `draw` sees: element `r * W + c` (10_state.md R31, 60_exceptions.md R257). -/
def Screen.flat (g : Pixels) : List Bool := g.flatten

/-- 00BN: up by `n` rows, the bottom rows cleared (46_extended.md R211). -/
def Screen.scrollUp (w h n : Nat) (g : Pixels) : Pixels :=
  Screen.build w h fun r c => if r + n < h then Screen.pixel g (r + n) c else false

/-- 00CN: down by `n` rows, the top rows cleared (46_extended.md R212). -/
def Screen.scrollDown (w h n : Nat) (g : Pixels) : Pixels :=
  Screen.build w h fun r c => if n ≤ r then Screen.pixel g (r - n) c else false

/-- 00FB: right by 4 columns, the leftmost cleared (46_extended.md R213). -/
def Screen.scrollRight (w h : Nat) (g : Pixels) : Pixels :=
  Screen.build w h fun r c => if 4 ≤ c then Screen.pixel g r (c - 4) else false

/-- 00FC: left by 4 columns, the rightmost cleared (46_extended.md R214). -/
def Screen.scrollLeft (w h : Nat) (g : Pixels) : Pixels :=
  Screen.build w h fun r c => if c + 4 < w then Screen.pixel g r (c + 4) else false

/-- A drawing under way: the buffer so far, and whether a set pixel has been cleared (44_display.md R172). -/
structure Drawing where
  gfx : Pixels
  collide : Bool
  deriving DecidableEq, Repr

/-- The body of SpriteXor's inner loop for a sprite bit that falls on row `pr`, column `pc` (44_display.md R172). -/
def Screen.xorPixel (pr pc : Nat) (bit : Bool) (d : Drawing) : Drawing :=
  if bit then { gfx := Screen.flip d.gfx pr pc, collide := d.collide || Screen.pixel d.gfx pr pc } else d

/-- SpriteXor's inner loop: columns 0 to `w - 1` of sprite row `r`, its most significant bit leftmost, positions wrapped
modulo the buffer's width and height (44_display.md R172; D15). -/
def Screen.xorRow (width height col0 row0 r : Nat) {w : Nat} (bits : BitVec w) (d : Drawing) : Drawing :=
  (List.range w).foldl
    (fun d c => Screen.xorPixel ((row0 + r) % height) ((col0 + c) % width) (bits.getLsbD (w - 1 - c)) d) d

/-- SpriteXor from sprite row `r` on. -/
def Screen.xorRowsFrom (width height col0 row0 : Nat) {w : Nat} (r : Nat) (rows : List (BitVec w)) (d : Drawing) :
    Drawing :=
  match rows with
  | [] => d
  | bits :: rest =>
    Screen.xorRowsFrom width height col0 row0 (r + 1) rest (Screen.xorRow width height col0 row0 r bits d)

/-- `SpriteXor(col0, row0, h, w, rows)` on a buffer of `width` by `height` pixels (44_display.md R172). -/
def Screen.spriteXor (width height col0 row0 : Nat) {w : Nat} (rows : List (BitVec w)) (g : Pixels) : Drawing :=
  Screen.xorRowsFrom width height col0 row0 0 rows { gfx := g, collide := false }

end Sys2Proof.Machine
end

