-- ==== Sys2Proof/Machine/State.lean ====
section
/-! DEFINITION. The state of the core as plain data (10_state.md R20), the reasons it stops, and the state at
construction. -/

namespace Sys2Proof.Machine

/-- The resolution mode `RES` (10_state.md R30). -/
inductive Res where
  | low
  | high
  deriving DecidableEq, Repr

/-- The core state `CPU` (10_state.md R32). -/
inductive Cpu where
  | running
  | stopped
  deriving DecidableEq, Repr

/-- The keypad reset policy `POLICY` (10_state.md R35). -/
inductive Policy where
  | static
  | smooth
  deriving DecidableEq, Repr

/-- The fault kinds, codes 1 to 7 of 60_exceptions.md R241. A step that raises one answers a NEXT state that is Stopped
and records the kind in `STOP` (40_cycle.md R96); `Safety.judge` then answers it as a fault, "the model does not know what
the chip does here". Safe: no claim about a good run survives one (log 7). -/
inductive Fault where
  /-- Raised by the fetch when `PC + 1 > 0xFFF` (40_cycle.md R91, D5). Safe. -/
  | fetchOutOfRange
  /-- Raised by DXYN, DXY0, FX33, FX55, FX65 when a data byte address is above 0xFFF (20_memory.md R52, D6). Safe. -/
  | memOutOfRange
  /-- Raised by FX1E, and by FX55 and FX65 when `LS_I_INC = X_PLUS_1`, when the new `I` would exceed 0xFFF (D7, D12). Safe. -/
  | indexOverflow
  /-- Raised by 2NNN when `SP = 16` (41_flow.md R112, D8). Safe. -/
  | stackOverflow
  /-- Raised by 00EE when `SP = 0` (41_flow.md R111, D8). Safe. -/
  | stackUnderflow
  /-- Raised by EX9E and EXA1 when `Vx > 15` (45_keys_timers.md R190, D13). Safe. -/
  | keyIndex
  /-- Raised by FX75 and FX85 when `x > 7` (46_extended.md R219, R220, D21). Safe. -/
  | flagIndex
  deriving DecidableEq, Repr

/-- The stop kinds of 60_exceptions.md R241: the documented stop, code 0, and the faults. -/
inductive StopKind where
  /-- The fetched word matches no enabled row (40_cycle.md R95). -/
  | unknownOpcode
  /-- A fault the spec decided (40_cycle.md R91, R96). -/
  | fault (f : Fault)
  deriving DecidableEq, Repr

/-- Why a command is refused. -/
inductive Refusal where
  /-- An instruction that has no meaning yet; raised by no arm of `exec`. Safe. -/
  | notModelled (mnemonic : String)
  /-- Raised by the Load command on an image of more than 3584 bytes, which changes nothing
  (70_reset_and_hazards.md R282, U16). Safe: it is the spec's own refusal. -/
  | loadTooLarge
  deriving DecidableEq, Repr

/-- `RAM`, sparse: cells in rising order of address, none equal to what its address holds at reset (`Memory.wf`). -/
abbrev Memory := List Host.Cell

/-- The state of the core: every element of 10_state.md R20, and two fields of the model's own (`cfg`, `draws`). -/
structure State where
  /-- The model's own: the build parameters of 00_scope.md R5 (log 1). -/
  cfg : Config
  /-- `V[0..15]` (R21); `V[15]` is `VF` (R22). -/
  v : Vector Byte 16
  /-- `I` (R23). -/
  i : Index
  /-- `PC` (R24). -/
  pc : Word
  /-- `S[0..15]` (R25). -/
  stack : Vector Word 16
  /-- `SP`, 0 to 16 (R26). -/
  sp : Fin 17
  /-- `OP` (R27). -/
  op : Word
  /-- `DT` (R28). -/
  dt : Byte
  /-- `ST` (R28). -/
  st : Byte
  /-- `RAM` (R29). -/
  ram : Memory
  /-- `RES` (R30). -/
  res : Res
  /-- `GFX` (R31). -/
  gfx : Pixels
  /-- `CPU` (R32). -/
  cpu : Cpu
  /-- `FLAGS[0..7]` (R33). -/
  flags : Vector Byte 8
  /-- `KEY[0..15]` (R34). -/
  keys : Vector Bool 16
  /-- `POLICY` (R35). -/
  policy : Policy
  /-- `STOP` (R36). -/
  stop : Option StopKind
  /-- The model's own: how many random bytes have been drawn (log 6). -/
  draws : Nat
  deriving DecidableEq, Repr

/-- What a step or a command answers. -/
abbrev Result := Host.Outcome State Fault Refusal

/-- The state of a build right after construction: every element at its reset value, the keypad released and `Static`
(70_reset_and_hazards.md R280, R281; D24, log 8). `draws := 0` is a DESIGN CHOICE (log 6) no statement rests on. -/
def State.construct (cfg : Config) : State :=
  { cfg := cfg
    v := Vector.replicate 16 0
    i := 0
    pc := 0x200
    stack := Vector.replicate 16 0
    sp := 0
    op := 0
    dt := 0
    st := 0
    ram := []
    res := .low
    gfx := Screen.blank 64 32
    cpu := .running
    flags := Vector.replicate 8 0
    keys := Vector.replicate 16 false
    policy := .static
    stop := none
    draws := 0 }

/-- The machine right after reset: the constructed core (70_reset_and_hazards.md R281) of the build
`constructionBuild`, `EXT = true` (DESIGN CHOICE, log 2). -/
def State.reset : State := State.construct constructionBuild

end Sys2Proof.Machine
end

