-- ==== Sys2Proof/Machine/Ops.lean ====
section
/-! DEFINITION. The shared operations: registers, memory, stack, keypad, display size, fetching, stopping and resetting. -/

namespace Sys2Proof.Machine

/-! ## Memory -/

/-- What `RAM` holds at reset, and so what an unlisted address reads as: `FONT` from 0x000, `BIG_FONT` from 0x050 when
`EXT`, 0 elsewhere (10_state.md R29, 20_memory.md R56; log 17). -/
def ramReset (cfg : Config) (a : Nat) : Byte :=
  if h : a < 80 then cfg.font[a]
  else if h' : a < 240 then (if cfg.ext then cfg.bigFont[a - 80] else 0)
  else 0

/-- The byte at an address; `d` gives what an unlisted address reads as. -/
def Memory.read (d : Nat → Byte) (m : Memory) (a : Nat) : Byte :=
  match m with
  | [] => d a
  | (k, b) :: rest => if a = k then b else Memory.read d rest a

/-- The cells without those of one address. -/
def Memory.erase (m : Memory) (a : Nat) : Memory := m.filter fun c => c.1 != a

/-- One more cell, before the first cell of a higher address. -/
def Memory.insert (m : Memory) (a : Nat) (b : Byte) : Memory :=
  match m with
  | [] => [(a, b)]
  | (k, b') :: rest => if a < k then (a, b) :: (k, b') :: rest else (k, b') :: Memory.insert rest a b

/-- `RAM[a] <- b`, in canonical form: the value an unlisted address reads as leaves no cell. -/
def Memory.write (d : Nat → Byte) (m : Memory) (a : Nat) (b : Byte) : Memory :=
  if b = d a then Memory.erase m a else Memory.insert (Memory.erase m a) a b

/-- The canonical form: addresses strictly rising and inside the 4096 bytes, no cell equal to what its address reads as
unlisted (20_memory.md R50; log 17). -/
abbrev Memory.wf (d : Nat → Byte) (m : Memory) : Prop :=
  (m.Pairwise fun p q => p.1 < q.1) ∧ ∀ c ∈ m, c.1 < 4096 ∧ c.2 ≠ d c.1

/-- `MemRead(a, 1)` (00_scope.md R9). -/
def State.readMem (s : State) (a : Nat) : Byte := Memory.read (ramReset s.cfg) s.ram a

/-- `MemWrite(a, 1, b)` (00_scope.md R9). -/
def State.writeMem (s : State) (a : Nat) (b : Byte) : State :=
  { s with ram := Memory.write (ramReset s.cfg) s.ram a b }

/-- The bytes written one after the other from an address up. -/
def State.writeBytes (s : State) (a : Nat) (bs : List Byte) : State :=
  match bs with
  | [] => s
  | b :: rest => State.writeBytes (s.writeMem a b) (a + 1) rest

/-- The `n` bytes from an address up are inside `RAM` (20_memory.md R52). -/
def inRam (a n : Nat) : Bool := decide (a + n ≤ 4096)

/-! ## Registers -/

/-- `V[x]` (10_state.md R21). -/
def State.getV (s : State) (x : Reg) : Byte := s.v[x.val]

/-- `V[x] <- b`. -/
def State.setV (s : State) (x : Reg) (b : Byte) : State := { s with v := s.v.set x.val b x.isLt }

/-- `I <- a`. -/
def State.setI (s : State) (a : Index) : State := { s with i := a }

/-- `PC <- a`. -/
def State.setPC (s : State) (a : Word) : State := { s with pc := a }

/-- `PC <- PC + 2` when the condition holds: pass over one word (41_flow.md R110). -/
def State.skipIf (s : State) (c : Bool) : State := if c then s.setPC (s.pc + 2) else s

/-- `DT <- b` (10_state.md R28). -/
def State.setDT (s : State) (b : Byte) : State := { s with dt := b }

/-- `ST <- b` (10_state.md R28). -/
def State.setST (s : State) (b : Byte) : State := { s with st := b }

/-- Elements 0 to `x` of a register block replaced: `for j in 0 .. x: dst[j] <- src j`, ascending
(43_index_memory.md R156, 46_extended.md R219, R220). -/
def copyUpTo {n : Nat} (dst : Vector Byte n) (x : Nat) (src : Nat → Byte) : Vector Byte n :=
  (List.range (x + 1)).foldl (fun d j => d.setIfInBounds j (src j)) dst

/-- The values of `V[0]` to `V[x]`, in order (43_index_memory.md R155). -/
def State.firstV (s : State) (x : Reg) : List Byte := (List.range (x.val + 1)).map fun j => s.v[j]?.getD 0

/-! ## The return stack -/

/-- `S[SP] <- a; SP <- SP + 1`, for `SP <= 15` (41_flow.md R112). -/
def State.push (s : State) (a : Word) : State :=
  { s with stack := s.stack.setIfInBounds s.sp.val a, sp := Fin.ofNat 17 (s.sp.val + 1) }

/-- `S[SP - 1]`, the entry a return takes, for `SP >= 1` (41_flow.md R111). -/
def State.top (s : State) : Word := s.stack[s.sp.val - 1]?.getD 0

/-- `SP <- SP - 1`, for `SP >= 1`; the entry keeps its value (41_flow.md R111). -/
def State.pop (s : State) : State := { s with sp := Fin.ofNat 17 (s.sp.val - 1) }

/-! ## The keypad -/

/-- `KEY[k]`; a number above 15 names no key. -/
def State.key (s : State) (k : Nat) : Bool := s.keys[k]?.getD false

/-- `KEY[k] <- b`. -/
def State.setKey (s : State) (k : Nat) (b : Bool) : State := { s with keys := s.keys.setIfInBounds k b }

/-- What consuming a key that was found pressed does: cleared under `Smooth`, kept under `Static`
(60_exceptions.md R255; D14). -/
def State.consumeKey (s : State) (k : Nat) : State :=
  match s.policy with
  | .smooth => s.setKey k false
  | .static => s

/-- The lowest-numbered pressed key, if any (60_exceptions.md R254). -/
def State.pressedKey (s : State) : Option Nat := (List.range 16).find? fun k => s.key k

/-! ## The display -/

/-- `W` of a resolution (10_state.md R30; D16). -/
def Res.width (r : Res) : Nat :=
  match r with
  | .low => 64
  | .high => 128

/-- `H` of a resolution (10_state.md R30; D16). -/
def Res.height (r : Res) : Nat :=
  match r with
  | .low => 32
  | .high => 64

/-- `GFX <- g`. -/
def State.setGfx (s : State) (g : Pixels) : State := { s with gfx := g }

/-- `GFX <- g; RES <- r`. -/
def State.setDisplay (s : State) (r : Res) (g : Pixels) : State := { s with res := r, gfx := g }

/-! ## Random bytes -/

/-- The byte the next draw gives: free, under no law (60_exceptions.md R260; log 6). -/
def State.drawByte (s : State) : Byte := Config.drawByte s.draws

/-- The draw is used up; the next one is unrelated to it (60_exceptions.md R260). -/
def State.drawn (s : State) : State := { s with draws := s.draws + 1 }

/-! ## Stopping, the core's only exception mechanism, and the way out of it -/

/-- The code of a stop kind (60_exceptions.md R241). -/
def StopKind.code (k : StopKind) : Nat :=
  match k with
  | .unknownOpcode => 0
  | .fault .fetchOutOfRange => 1
  | .fault .memOutOfRange => 2
  | .fault .indexOverflow => 3
  | .fault .stackOverflow => 4
  | .fault .stackUnderflow => 5
  | .fault .keyIndex => 6
  | .fault .flagIndex => 7

/-- `CPU <- Stopped; STOP <- k`: nothing else is saved, no vector is taken, `PC` is not redirected
(60_exceptions.md R240, R242, R245). -/
def State.halt (s : State) (k : StopKind) : State := { s with cpu := .stopped, stop := some k }

/-- `raise Fault(f)`: the step answers the stopped state, with none of the instruction's writes (40_cycle.md R96). -/
def raise (f : Fault) (s : State) : Result := .next (s.halt (.fault f))

/-- `check c else raise Fault(f)`, and then the rest of the execute phase (00_scope.md R9, 40_cycle.md R97). -/
def check (c : Bool) (f : Fault) (s : State) (body : Result) : Result := if c then body else raise f s

/-- The Reset command: every element at its reset value, the keypad, the policy and the build kept; the only way out of
`Stopped` (70_reset_and_hazards.md R280, 60_exceptions.md R246). The draw count is kept, so later draws stay unrelated to
earlier ones (DESIGN CHOICE, log 6). -/
def State.resetCommand (s : State) : State :=
  { State.construct s.cfg with keys := s.keys, policy := s.policy, draws := s.draws }

/-! ## Fetching -/

/-- The fetch is in range: `PC + 1 <= 0xFFF` (40_cycle.md R91; D5). -/
def State.fetchable (s : State) : Bool := decide (s.pc.toNat + 1 ≤ 0xFFF)

/-- The two bytes at `PC`, in address order (20_memory.md R51). -/
def State.fetchBytes (s : State) : List Byte := [s.readMem s.pc.toNat, s.readMem (s.pc.toNat + 1)]

/-- `MemRead(PC, 2)`, big-endian (20_memory.md R51). -/
def State.fetchedWord (s : State) : Word := wordOfBytes (s.readMem s.pc.toNat) (s.readMem (s.pc.toNat + 1))

/-- Latch and advance: `OP <- op; PC <- PC + 2` (40_cycle.md R92, R93). -/
def State.latch (s : State) (op : Word) : State := { s with op := op, pc := s.pc + 2 }

/-- The state with a word where the next step fetches, running; an unfetchable `PC` is first put at 0x200 (log 19). -/
def State.placeWord (s : State) (w : Word) : State :=
  let a : Word := if s.fetchable then s.pc else 0x200
  State.writeBytes { s with cpu := .running, stop := none, pc := a } a.toNat (bytesOfWord w)

end Sys2Proof.Machine
end

