-- ==== Sys2Proof/Machine/Flags.lean ====
section
/-! DEFINITION. The flags an instruction can write into `VF` (10_state.md R22, 42_alu.md R130), and the order of the
two writes. -/

namespace Sys2Proof.Machine

/-- A flag as a register value, 0 or 1 (42_alu.md R130). -/
def flagByte (c : Bool) : Byte := if c then 1 else 0

/-- The carry out of bit 7 of an exact sum (42_alu.md R137). -/
def carryFlag (a b : Byte) : Byte := flagByte (decide (0xFF < a.toNat + b.toNat))

/-- NOT borrow of `a - b` (42_alu.md R138, R140; D33). -/
def notBorrowFlag (a b : Byte) : Byte := flagByte (decide (b.toNat ≤ a.toNat))

/-- The bit a right shift by one shifts out (42_alu.md R139). -/
def shrFlag (a : Byte) : Byte := flagByte (a.getLsbD 0)

/-- The bit a left shift by one shifts out (42_alu.md R141). -/
def shlFlag (a : Byte) : Byte := flagByte (a.getLsbD 7)

/-- `VF <- f`. -/
def State.setVF (s : State) (f : Byte) : State := s.setV 15 f

/-- The result into `Vx`, then the flag into `VF`, last (42_alu.md R130; D9). -/
def State.setVThenVF (s : State) (x : Reg) (b f : Byte) : State := (s.setV x b).setVF f

end Sys2Proof.Machine
end

