-- ==== Sys2Proof/Machine/Operands.lean ====
section
/-! DEFINITION. The operand forms: immediates, addresses through `I`, the shift source, sprite rows, glyph addresses. -/

namespace Sys2Proof.Machine

/-- `zext_16(nnn)`: an absolute target (30_encoding.md R73, 41_flow.md R110). -/
def absolute (nnn : Index) : Word := nnn.setWidth 16

/-- `zext_16(nnn) + zext_16(V0)`: BNNN's target, at most 0x10FE (41_flow.md R118). -/
def State.offsetTarget (s : State) (nnn : Index) : Word := nnn.setWidth 16 + (s.getV 0).setWidth 16

/-- The effective address of data byte `k`: `I + k`, exact (43_index_memory.md R150). -/
def State.dataAddr (s : State) (k : Nat) : Nat := s.i.toNat + k

/-- The register the shifts read: `Vx` or `Vy` by `SHIFT_SRC` (42_alu.md R139, R141; D11). -/
def State.shiftSource (s : State) (x y : Reg) : Byte :=
  match s.cfg.shiftSrc with
  | .x => s.getV x
  | .y => s.getV y

/-- The rows of an 8-wide sprite: row `r` is `RAM[I + r]` (44_display.md R171). -/
def State.spriteRows8 (s : State) (n : Nat) : List (BitVec 8) :=
  (List.range n).map fun r => s.readMem (s.dataAddr r)

/-- The rows of a 16 x 16 sprite: row `r` is `RAM[I + 2r] ++ RAM[I + 2r + 1]` (46_extended.md R217). -/
def State.spriteRows16 (s : State) : List (BitVec 16) :=
  (List.range 16).map fun r => s.readMem (s.dataAddr (2 * r)) ++ s.readMem (s.dataAddr (2 * r + 1))

/-- The address of a small glyph: `Vx * 5`, not masked (43_index_memory.md R153; D36). -/
def smallGlyph (b : Byte) : Index := BitVec.ofNat 12 (b.toNat * 5)

/-- The address of a big glyph: `0x50 + Vx * 10`, not masked (46_extended.md R218; D20). -/
def bigGlyph (b : Byte) : Index := BitVec.ofNat 12 (0x50 + b.toNat * 10)

/-- The decimal digits of a byte: hundreds, tens, units (43_index_memory.md R154). -/
def decimalDigits (b : Byte) : List Byte :=
  [BitVec.ofNat 8 (b.toNat / 100), BitVec.ofNat 8 (b.toNat / 10 % 10), BitVec.ofNat 8 (b.toNat % 10)]

/-- The new `I` of FX55 and FX65 fits 12 bits, which matters only when they advance it
(43_index_memory.md R155, R156; D12). -/
def State.advanceFits (s : State) (x : Reg) : Bool :=
  match s.cfg.lsIInc with
  | .none => true
  | .xPlusOne => decide (s.i.toNat + x.val + 1 ≤ 0xFFF)

/-- `if LS_I_INC = X_PLUS_1: I <- I + x + 1` (43_index_memory.md R155, R156; D12). -/
def State.advanceI (s : State) (x : Reg) : State :=
  match s.cfg.lsIInc with
  | .none => s
  | .xPlusOne => s.setI (BitVec.ofNat 12 (s.i.toNat + x.val + 1))

end Sys2Proof.Machine
end

