-- ==== Sys2Proof/Machine/Alu.lean ====
section
/-! DEFINITION. Register loads, arithmetic and logic (42_alu.md). None of them can stop the core. -/

namespace Sys2Proof.Machine

/-- `6XKK` LD Vx, kk (42_alu.md R131). -/
def execLdImm (x : Reg) (kk : Byte) (s : State) : Result := .next (s.setV x kk)

/-- `7XKK` ADD Vx, kk, no carry flag (42_alu.md R132). -/
def execAddImm (x : Reg) (kk : Byte) (s : State) : Result := .next (s.setV x (s.getV x + kk))

/-- `8XY0` LD Vx, Vy (42_alu.md R133). -/
def execLdReg (x y : Reg) (s : State) : Result := .next (s.setV x (s.getV y))

/-- `8XY1` OR Vx, Vy, `VF` not reset (42_alu.md R134; D10). -/
def execOrReg (x y : Reg) (s : State) : Result := .next (s.setV x (s.getV x ||| s.getV y))

/-- `8XY2` AND Vx, Vy, `VF` not reset (42_alu.md R135; D10). -/
def execAndReg (x y : Reg) (s : State) : Result := .next (s.setV x (s.getV x &&& s.getV y))

/-- `8XY3` XOR Vx, Vy, `VF` not reset (42_alu.md R136; D10). -/
def execXorReg (x y : Reg) (s : State) : Result := .next (s.setV x (s.getV x ^^^ s.getV y))

/-- `8XY4` ADD Vx, Vy, `VF` the carry (42_alu.md R137). -/
def execAddReg (x y : Reg) (s : State) : Result :=
  .next (s.setVThenVF x (s.getV x + s.getV y) (carryFlag (s.getV x) (s.getV y)))

/-- `8XY5` SUB Vx, Vy, `VF` NOT borrow (42_alu.md R138). -/
def execSub (x y : Reg) (s : State) : Result :=
  .next (s.setVThenVF x (s.getV x - s.getV y) (notBorrowFlag (s.getV x) (s.getV y)))

/-- `8XY6` SHR Vx, Vy, `VF` the bit shifted out (42_alu.md R139). -/
def execShr (x y : Reg) (s : State) : Result :=
  .next (s.setVThenVF x (s.shiftSource x y >>> 1) (shrFlag (s.shiftSource x y)))

/-- `8XY7` SUBN Vx, Vy, `VF` NOT borrow (42_alu.md R140). -/
def execSubn (x y : Reg) (s : State) : Result :=
  .next (s.setVThenVF x (s.getV y - s.getV x) (notBorrowFlag (s.getV y) (s.getV x)))

/-- `8XYE` SHL Vx, Vy, `VF` the bit shifted out (42_alu.md R141). -/
def execShl (x y : Reg) (s : State) : Result :=
  .next (s.setVThenVF x (s.shiftSource x y <<< 1) (shlFlag (s.shiftSource x y)))

/-- `CXKK` RND Vx, kk: a fresh draw under a mask (42_alu.md R142, 60_exceptions.md R260). -/
def execRnd (x : Reg) (kk : Byte) (s : State) : Result := .next (s.drawn.setV x (s.drawByte &&& kk))

end Sys2Proof.Machine
end

