-- ==== Sys2Proof/Machine/Display.lean ====
section
/-! DEFINITION. Display (44_display.md), and the drawing DXYN and DXY0 share. -/

namespace Sys2Proof.Machine

/-- The drawing of sprite rows at column `Vx`, row `Vy` of the current buffer (44_display.md R171, R172). -/
def State.drawing {w : Nat} (s : State) (x y : Reg) (rows : List (BitVec w)) : Drawing :=
  Screen.spriteXor s.res.width s.res.height (s.getV x).toNat (s.getV y).toNat rows s.gfx

/-- The buffer drawn on, then `VF` written last, 1 iff a pixel went from set to clear (44_display.md R171; D9). -/
def State.drawSprite {w : Nat} (s : State) (x y : Reg) (rows : List (BitVec w)) : State :=
  (s.setGfx (s.drawing x y rows).gfx).setVF (flagByte (s.drawing x y rows).collide)

/-- `00E0` CLS: the resolution is kept (44_display.md R170). -/
def execCls (s : State) : Result := .next (s.setGfx (Screen.blank s.res.width s.res.height))

/-- `DXYN` DRW Vx, Vy, n (44_display.md R171). -/
def execDrw (x y : Reg) (n : Count) (s : State) : Result :=
  check (n.val == 0 || inRam (s.dataAddr 0) n.val) .memOutOfRange s
    (.next (s.drawSprite x y (s.spriteRows8 n.val)))

end Sys2Proof.Machine
end

