-- ==== Sys2Proof/Machine/Extended.lean ====
section
/-! DEFINITION. The Super-CHIP extension (46_extended.md). Its words decode only when `EXT = true` (R210). -/

namespace Sys2Proof.Machine

/-- `00BN` SCU n (46_extended.md R211; D18). -/
def execScu (n : Count) (s : State) : Result :=
  .next (s.setGfx (Screen.scrollUp s.res.width s.res.height n.val s.gfx))

/-- `00CN` SCD n (46_extended.md R212; D18). -/
def execScd (n : Count) (s : State) : Result :=
  .next (s.setGfx (Screen.scrollDown s.res.width s.res.height n.val s.gfx))

/-- `00FB` SCR (46_extended.md R213; D18). -/
def execScr (s : State) : Result := .next (s.setGfx (Screen.scrollRight s.res.width s.res.height s.gfx))

/-- `00FC` SCL (46_extended.md R214; D18). -/
def execScl (s : State) : Result := .next (s.setGfx (Screen.scrollLeft s.res.width s.res.height s.gfx))

/-- `RESCALE_DOWN`: a free 64x32 buffer (46_extended.md R215; D17, log 5). -/
def rescaleDown (g : Pixels) : Pixels := Screen.build 64 32 (Config.rescaleDownPixel g)

/-- `RESCALE_UP`: a free 128x64 buffer (46_extended.md R216; D17, log 5). -/
def rescaleUp (g : Pixels) : Pixels := Screen.build 128 64 (Config.rescaleUpPixel g)

/-- `00FE` LOW: in low resolution it changes nothing (46_extended.md R215). -/
def execLow (s : State) : Result :=
  match s.res with
  | .low => .next s
  | .high => .next (s.setDisplay .low (rescaleDown s.gfx))

/-- `00FF` HIGH: in high resolution it changes nothing (46_extended.md R216). -/
def execHigh (s : State) : Result :=
  match s.res with
  | .low => .next (s.setDisplay .high (rescaleUp s.gfx))
  | .high => .next s

/-- `DXY0` DRW Vx, Vy, 0: a 16 x 16 sprite, in both resolutions (46_extended.md R217; D19). -/
def execDrw16 (x y : Reg) (s : State) : Result :=
  check (inRam (s.dataAddr 0) 32) .memOutOfRange s (.next (s.drawSprite x y s.spriteRows16))

/-- `FX30` LD HF, Vx (46_extended.md R218). -/
def execLdHF (x : Reg) (s : State) : Result := .next (s.setI (bigGlyph (s.getV x)))

/-- `FX75` LD R, Vx (46_extended.md R219; D21). -/
def execLdRStore (x : Reg) (s : State) : Result :=
  check (decide (x.val ≤ 7)) .flagIndex s
    (.next { s with flags := copyUpTo s.flags x.val fun j => s.v[j]?.getD 0 })

/-- `FX85` LD Vx, R (46_extended.md R220; D21). -/
def execLdRLoad (x : Reg) (s : State) : Result :=
  check (decide (x.val ≤ 7)) .flagIndex s
    (.next { s with v := copyUpTo s.v x.val fun j => s.flags[j]?.getD 0 })

end Sys2Proof.Machine
end

