-- ==== Sys2Proof/Machine/Flow.lean ====
section
/-! DEFINITION. Control transfer (41_flow.md). Every execute phase starts with `PC = a + 2` (40_cycle.md R93). -/

namespace Sys2Proof.Machine

/-- `00EE` RET (41_flow.md R111). -/
def execRet (s : State) : Result :=
  check (decide (1 ≤ s.sp.val)) .stackUnderflow s (.next (s.pop.setPC s.top))

/-- `1NNN` JP nnn (41_flow.md R113). -/
def execJp (nnn : Index) (s : State) : Result := .next (s.setPC (absolute nnn))

/-- `2NNN` CALL nnn (41_flow.md R112). -/
def execCall (nnn : Index) (s : State) : Result :=
  check (decide (s.sp.val ≤ 15)) .stackOverflow s (.next ((s.push s.pc).setPC (absolute nnn)))

/-- `3XKK` SE Vx, kk (41_flow.md R114). -/
def execSeImm (x : Reg) (kk : Byte) (s : State) : Result := .next (s.skipIf (s.getV x == kk))

/-- `4XKK` SNE Vx, kk (41_flow.md R115). -/
def execSneImm (x : Reg) (kk : Byte) (s : State) : Result := .next (s.skipIf (s.getV x != kk))

/-- `5XY0` SE Vx, Vy (41_flow.md R116). -/
def execSeReg (x y : Reg) (s : State) : Result := .next (s.skipIf (s.getV x == s.getV y))

/-- `9XY0` SNE Vx, Vy (41_flow.md R117). -/
def execSneReg (x y : Reg) (s : State) : Result := .next (s.skipIf (s.getV x != s.getV y))

/-- `BNNN` JP V0, nnn (41_flow.md R118). -/
def execJpV0 (nnn : Index) (s : State) : Result := .next (s.setPC (s.offsetTarget nnn))

end Sys2Proof.Machine
end

