-- ==== Sys2Proof/Machine/IndexMem.lean ====
section
/-! DEFINITION. Index register and memory transfer (43_index_memory.md). -/

namespace Sys2Proof.Machine

/-- `ANNN` LD I, nnn (43_index_memory.md R151). -/
def execLdI (nnn : Index) (s : State) : Result := .next (s.setI nnn)

/-- `FX1E` ADD I, Vx, `VF` not written (43_index_memory.md R152; D7). -/
def execAddI (x : Reg) (s : State) : Result :=
  check (decide (s.i.toNat + (s.getV x).toNat ≤ 0xFFF)) .indexOverflow s
    (.next (s.setI (BitVec.ofNat 12 (s.i.toNat + (s.getV x).toNat))))

/-- `FX29` LD F, Vx (43_index_memory.md R153). -/
def execLdF (x : Reg) (s : State) : Result := .next (s.setI (smallGlyph (s.getV x)))

/-- `FX33` LD B, Vx: three digits at three addresses (43_index_memory.md R154). -/
def execLdB (x : Reg) (s : State) : Result :=
  check (inRam (s.dataAddr 0) 3) .memOutOfRange s
    (.next (s.writeBytes (s.dataAddr 0) (decimalDigits (s.getV x))))

/-- `FX55` LD [I], Vx (43_index_memory.md R155). -/
def execLdMemStore (x : Reg) (s : State) : Result :=
  check (inRam (s.dataAddr 0) (x.val + 1)) .memOutOfRange s
    (check (s.advanceFits x) .indexOverflow s
      (.next ((s.writeBytes (s.dataAddr 0) (s.firstV x)).advanceI x)))

/-- `FX65` LD Vx, [I] (43_index_memory.md R156). -/
def execLdMemLoad (x : Reg) (s : State) : Result :=
  check (inRam (s.dataAddr 0) (x.val + 1)) .memOutOfRange s
    (check (s.advanceFits x) .indexOverflow s
      (.next ({ s with v := copyUpTo s.v x.val fun j => s.readMem (s.dataAddr j) }.advanceI x)))

end Sys2Proof.Machine
end

