-- ==== Sys2Proof/Machine/KeysTimers.lean ====
section
/-! DEFINITION. Keypad and timers (45_keys_timers.md). -/

namespace Sys2Proof.Machine

/-- The key number an EX9E or EXA1 uses is `Vx`, checked against 15 (45_keys_timers.md R190; D13). The pressed key is
consumed (60_exceptions.md R255), and one word is passed over when the key's state is `wanted`. -/
def State.skipOnKey (s : State) (x : Reg) (wanted : Bool) : Result :=
  check (decide ((s.getV x).toNat ≤ 15)) .keyIndex s
    (.next ((if s.key (s.getV x).toNat then s.consumeKey (s.getV x).toNat else s).skipIf
      (s.key (s.getV x).toNat == wanted)))

/-- `EX9E` SKP Vx (45_keys_timers.md R191). -/
def execSkp (x : Reg) (s : State) : Result := s.skipOnKey x true

/-- `EXA1` SKNP Vx (45_keys_timers.md R192). -/
def execSknp (x : Reg) (s : State) : Result := s.skipOnKey x false

/-- `FX0A` LD Vx, K: with no key pressed, back to the same instruction (45_keys_timers.md R193). -/
def execLdK (x : Reg) (s : State) : Result :=
  match s.pressedKey with
  | none => .next (s.setPC (s.pc - 2))
  | some k => .next ((s.setV x (BitVec.ofNat 8 k)).consumeKey k)

/-- `FX07` LD Vx, DT (45_keys_timers.md R194). -/
def execLdVxDT (x : Reg) (s : State) : Result := .next (s.setV x s.dt)

/-- `FX15` LD DT, Vx (45_keys_timers.md R195). -/
def execLdDT (x : Reg) (s : State) : Result := .next (s.setDT (s.getV x))

/-- `FX18` LD ST, Vx (45_keys_timers.md R196). -/
def execLdST (x : Reg) (s : State) : Result := .next (s.setST (s.getV x))

end Sys2Proof.Machine
end

