-- ==== Sys2Proof/Machine/Step.lean ====
section
/-! DEFINITION. The Step command (40_cycle.md R90), and the placing of a word where it fetches. -/

namespace Sys2Proof.Machine

/-- Decode and execute, after the fetch: `s` has latched and advanced already (40_cycle.md R90, R95). -/
def runFetched (bytes : List Byte) (s : State) : Host.Outcome State Fault Refusal :=
  match decode s.cfg.ext bytes with
  | .ok (i, _) => exec i s
  | .error _ => .next (s.halt .unknownOpcode)

/-- `Step()` (40_cycle.md R90): nothing when Stopped (R94); a stop when the fetch is out of range (R91); else fetch,
latch (R92), advance (R93), decode, and execute or stop (R95). -/
def step (s : State) : Host.Outcome State Fault Refusal :=
  match s.cpu with
  | .stopped => .next s
  | .running =>
    if s.fetchable then runFetched s.fetchBytes (s.latch s.fetchedWord)
    else raise .fetchOutOfRange s

/-- The state with a word of the opcode table where `step` fetches its next instruction: running, and at 0x200 if `PC`
could not be fetched from. It stands for the host's Load (70_reset_and_hazards.md R282; log 19). -/
def State.withFetchWord (s : State) (nbits w : Nat) : State := s.placeWord (tableWord nbits w)

end Sys2Proof.Machine
end

