-- ==== Sys2Proof/Machine/Commands.lean ====
section
/-! DEFINITION. The host interface: the commands that drive the core, each one atomic (60_exceptions.md R258), and the
reads between them (R261). -/

namespace Sys2Proof.Machine

/-- The host commands (60_exceptions.md R258). -/
inductive Command where
  /-- `Step` (40_cycle.md R90). -/
  | step
  /-- `Tick` (60_exceptions.md R259). -/
  | tick
  /-- `Reset` (70_reset_and_hazards.md R280). -/
  | reset
  /-- `Load(bytes)` (70_reset_and_hazards.md R282). -/
  | load (image : List Byte)
  /-- `KeyDown(k)` (60_exceptions.md R253). -/
  | keyDown (k : Fin 16)
  /-- `KeyUp(k)` (60_exceptions.md R253). -/
  | keyUp (k : Fin 16)
  /-- `ClearKey(k)` (60_exceptions.md R253). -/
  | clearKey (k : Fin 16)
  /-- `SetPolicy(p)` (60_exceptions.md R253). -/
  | setPolicy (p : Policy)
  deriving DecidableEq, Repr

/-- One down-count of a timer, saturating at 0 (60_exceptions.md R259). -/
def tickDown (b : Byte) : Byte := BitVec.ofNat 8 (b.toNat - 1)

/-- `Tick`, whatever `CPU` is (60_exceptions.md R250, R259). -/
def State.tick (s : State) : State := { s with dt := tickDown s.dt, st := tickDown s.st }

/-- `Load(bytes)`: at most 3584 bytes, written from 0x200; a longer image is refused and changes nothing
(70_reset_and_hazards.md R282; D25, D34). -/
def State.load (s : State) (image : List Byte) : Result :=
  if image.length ≤ 3584 then .next (s.writeBytes 0x200 image) else .refused .loadTooLarge

/-- What a command does to the core. -/
def State.command (c : Command) (s : State) : Result :=
  match c with
  | .step => Sys2Proof.Machine.step s
  | .tick => .next s.tick
  | .reset => .next s.resetCommand
  | .load image => s.load image
  | .keyDown k => .next (s.setKey k.val true)
  | .keyUp k => .next (s.setKey k.val false)
  | .clearKey k => .next (s.setKey k.val false)
  | .setPolicy p => .next { s with policy := p }

/-- The state after a command; one that is refused changes nothing (70_reset_and_hazards.md R282). -/
def State.after (s : State) (c : Command) : State :=
  match s.command c with
  | .next t => t
  | .fault _ => s
  | .refused _ => s

/-- The state after a schedule of commands, in the order the host issues them (60_exceptions.md R258). -/
def State.runSchedule (s : State) (cs : List Command) : State :=
  match cs with
  | [] => s
  | c :: rest => State.runSchedule (s.after c) rest

/-- Boot and restart: `Reset` then `Load(rom)` (70_reset_and_hazards.md R283). -/
def boot (rom : List Byte) : List Command := [.reset, .load rom]

/-- The emulator's schedule for one refresh, informative (60_exceptions.md R263): `speed` instructions, then one tick. -/
def refresh (speed : Nat) : List Command := List.replicate speed .step ++ [.tick]

/-! ## Reads between commands (60_exceptions.md R261); the other elements are the fields of `State` -/

/-- The sound output (60_exceptions.md R251). -/
def State.sound (s : State) : Bool := decide (0 < s.st.toNat)

/-- What the host's `draw` is given: the buffer, flat and row-major, and the resolution (60_exceptions.md R257). -/
def State.framebuffer (s : State) : List Bool × Res := (Screen.flat s.gfx, s.res)

/-- The dump of the whole of `RAM`, from address 0 (60_exceptions.md R261). -/
def State.dump (s : State) : List Byte := (List.range 4096).map s.readMem

/-- `get_opcode_at(line)` for a program of `size` bytes: the word at `0x200 + line`, no value past the program
(60_exceptions.md R261). DEDUCED (log 21): past means that `line + 1` is no byte of the program. -/
def State.opcodeAt (s : State) (size line : Nat) : Option Word :=
  if line + 1 < size then some (wordOfBytes (s.readMem (0x200 + line)) (s.readMem (0x200 + line + 1))) else none

/-- The host's physical key map (60_exceptions.md R256); another key produces no command (R253). -/
def physicalKey (c : Char) : Option (Fin 16) :=
  match c with
  | '1' => some 0x1
  | '2' => some 0x2
  | '3' => some 0x3
  | '4' => some 0xC
  | 'Q' => some 0x4
  | 'W' => some 0x5
  | 'E' => some 0x6
  | 'R' => some 0xD
  | 'A' => some 0x7
  | 'S' => some 0x8
  | 'D' => some 0x9
  | 'F' => some 0xE
  | 'Z' => some 0xA
  | 'X' => some 0x0
  | 'C' => some 0xB
  | 'V' => some 0xF
  | _ => none

end Sys2Proof.Machine
end

