-- ==== Sys2Proof/Safety.lean ====
section
/-! DEFINITION. What a good run is, and the invariants of the core, in the terms the claims use. -/

namespace Sys2Proof.Machine

/-- How a model judges what a step answers: a state stopped by a fault kind is a fault, "the model does not know what
the chip does here"; the documented stop is the hardware's own behaviour (60_exceptions.md R241). -/
def judge (r : Result) : Result :=
  match r with
  | .next t =>
    match t.stop with
    | some (.fault f) => .fault f
    | some .unknownOpcode => .next t
    | none => .next t
  | .fault f => .fault f
  | .refused x => .refused x

/-- A step, judged. -/
def safeStep (s : State) : Result := judge (step s)

/-- The core has not stopped: a good state of a run (60_exceptions.md R241: no stop is a good end). -/
def State.good (s : State) : Prop := s.cpu = .running ∧ s.stop = none

/-- `RAM` is in canonical form (20_memory.md R50; log 17). -/
def State.RamCanonical (s : State) : Prop := Memory.wf (ramReset s.cfg) s.ram

/-- `GFX` has `H` rows of `W` pixels, by the resolution in force (10_state.md R30, R31). -/
def State.DisplayShaped (s : State) : Prop := Screen.shaped s.res.width s.res.height s.gfx

/-- `STOP` is none exactly while the core runs (10_state.md R36). -/
def State.StopRecorded (s : State) : Prop := s.stop = none ↔ s.cpu = .running

/-- `PC` is at most 0x10FE and every stack entry at most 0x1000 (10_state.md R24, 41_flow.md R111). -/
def State.PcBounded (s : State) : Prop := s.pc.toNat ≤ 0x10FE ∧ ∀ j, (h : j < 16) → s.stack[j].toNat ≤ 0x1000

/-- In a build without the extension the display stays in low resolution and the flag storage keeps its reset value
(10_state.md R30, R33). -/
def State.BaseBuildPlain (s : State) : Prop :=
  s.cfg.ext = false → s.res = .low ∧ s.flags = Vector.replicate 8 0

/-- All the invariants of the core together. -/
structure State.Inv (s : State) : Prop where
  ram : s.RamCanonical
  display : s.DisplayShaped
  stop : s.StopRecorded
  pc : s.PcBounded
  base : s.BaseBuildPlain

end Sys2Proof.Machine
end

