-- ==== Sys2Proof/Certificates/Slice0/Obligations.lean ====
section
/-! DEFINITION. The statements for the provers, in the order of spec/'s files, and the notions they are written in. Where a
statement rests on a decision or a general-knowledge item of the spec, its docstring says so. -/

open Sys2Proof Sys2Proof.Machine

/-! ## Notions -/

/-- Every byte of memory reads as before. -/
def Sys2Proof.Claims.SameMemory (s t : State) : Prop := ∀ a, t.readMem a = s.readMem a

/-- Only `Vx` may differ, and it holds `b`: every other register, all other state and every byte of memory are as
before. -/
def Sys2Proof.Claims.OnlyReg (s t : State) (x : Reg) (b : Byte) : Prop :=
  t.getV x = b ∧ (∀ j, j ≠ x → t.getV j = s.getV j) ∧ { t with v := s.v } = s ∧ Claims.SameMemory s t

/-- Only `Vx` and `VF` may differ: `VF` holds the flag `f`, and `Vx` the result `b` unless it is `VF` itself. -/
def Sys2Proof.Claims.RegAndFlag (s t : State) (x : Reg) (b f : Byte) : Prop :=
  t.getV 15 = f ∧ (x ≠ 15 → t.getV x = b) ∧ (∀ j, j ≠ x → j ≠ 15 → t.getV j = s.getV j) ∧
    { t with v := s.v } = s ∧ Claims.SameMemory s t

/-- Only `PC` may differ, and it holds `a`. -/
def Sys2Proof.Claims.OnlyPC (s t : State) (a : Word) : Prop :=
  t.pc = a ∧ { t with pc := s.pc } = s ∧ Claims.SameMemory s t

/-- Only `I` may differ, and it holds the number `a`. -/
def Sys2Proof.Claims.OnlyI (s t : State) (a : Nat) : Prop :=
  t.i.toNat = a ∧ { t with i := s.i } = s ∧ Claims.SameMemory s t

/-- The state a fault leaves: stopped, the kind recorded, nothing else changed (40_cycle.md R96). -/
def Sys2Proof.Claims.faulted (f : Fault) (s : State) : State := { s with cpu := .stopped, stop := some (.fault f) }

/-- The word at `PC`, as a number: the byte at `PC` is its high byte (20_memory.md R51). -/
def Sys2Proof.Claims.wordAtPC (s : State) : Nat :=
  (s.readMem s.pc.toNat).toNat * 256 + (s.readMem (s.pc.toNat + 1)).toNat

/-- The unknown words, as 30_encoding.md R76 lists them. -/
def Sys2Proof.Claims.unknownWord (ext : Bool) (w : Nat) : Bool :=
  let n := w % 16
  let kk := w % 256
  match w / 4096 with
  | 0 => w != 0x00E0 && w != 0x00EE &&
      !(ext && (w == 0x00FB || w == 0x00FC || w == 0x00FE || w == 0x00FF || (0x00B0 ≤ w && w ≤ 0x00CF)))
  | 5 | 9 => n != 0
  | 8 => n == 8 || n == 9 || n == 10 || n == 11 || n == 12 || n == 13 || n == 15
  | 14 => kk != 0x9E && kk != 0xA1
  | 15 => !([0x07, 0x0A, 0x15, 0x18, 0x1E, 0x29, 0x33, 0x55, 0x65].contains kk) &&
      !(ext && [0x30, 0x75, 0x85].contains kk)
  | _ => false

/-- The fault the table of 60_exceptions.md R241 gives an instruction in a state, if any; of two, the one its pseudocode
checks first (R244). -/
def Sys2Proof.Claims.faultOf (i : Instr) (s : State) : Option Fault :=
  match i with
  | .drw _ _ n => if n ≠ 0 ∧ 0xFFF < s.i.toNat + n.val - 1 then some .memOutOfRange else none
  | .drw16 _ _ => if 0xFFF < s.i.toNat + 31 then some .memOutOfRange else none
  | .ldB _ => if 0xFFF < s.i.toNat + 2 then some .memOutOfRange else none
  | .ldMemStore x | .ldMemLoad x =>
    if 0xFFF < s.i.toNat + x.val then some .memOutOfRange
    else if s.cfg.lsIInc = .xPlusOne ∧ 0xFFF < s.i.toNat + x.val + 1 then some .indexOverflow else none
  | .addI x => if 0xFFF < s.i.toNat + (s.getV x).toNat then some .indexOverflow else none
  | .call _ => if s.sp = 16 then some .stackOverflow else none
  | .ret => if s.sp = 0 then some .stackUnderflow else none
  | .skp x | .sknp x => if 15 < (s.getV x).toNat then some .keyIndex else none
  | .ldRStore x | .ldRLoad x => if 7 < x.val then some .flagIndex else none
  | _ => none

/-- `PC` after an instruction that completes, as 40_cycle.md R98 and the skip conditions of 41_flow.md and
45_keys_timers.md give it; `s.pc` is `a + 2`. -/
def Sys2Proof.Claims.pcAfter (i : Instr) (s : State) : Nat :=
  match i with
  | .jp nnn | .call nnn => nnn.toNat
  | .jpV0 nnn => nnn.toNat + (s.getV 0).toNat
  | .ret => (s.stack[s.sp.val - 1]?.getD 0).toNat
  | .seImm x kk => if s.getV x = kk then (s.pc + 2).toNat else s.pc.toNat
  | .sneImm x kk => if s.getV x ≠ kk then (s.pc + 2).toNat else s.pc.toNat
  | .seReg x y => if s.getV x = s.getV y then (s.pc + 2).toNat else s.pc.toNat
  | .sneReg x y => if s.getV x ≠ s.getV y then (s.pc + 2).toNat else s.pc.toNat
  | .skp x => if s.key (s.getV x).toNat = true then (s.pc + 2).toNat else s.pc.toNat
  | .sknp x => if s.key (s.getV x).toNat = false then (s.pc + 2).toNat else s.pc.toNat
  | .ldK _ => if ∀ k < 16, s.key k = false then (s.pc - 2).toNat else s.pc.toNat
  | _ => s.pc.toNat

/-- The registers an instruction may write: its destination, `VF` where it defines a flag, and the block of a load
(10_state.md R21, R22). -/
def Sys2Proof.Claims.mayWrite (i : Instr) (j : Reg) : Prop :=
  match i with
  | .ldImm x _ | .addImm x _ | .ldReg x _ | .orReg x _ | .andReg x _ | .xorReg x _ | .rnd x _ | .ldVxDT x
  | .ldK x => j = x
  | .addReg x _ | .sub x _ | .shr x _ | .subn x _ | .shl x _ => j = x ∨ j = 15
  | .drw _ _ _ | .drw16 _ _ => j = 15
  | .ldMemLoad x | .ldRLoad x => j ≤ x
  | _ => False

/-- The addresses an instruction stores to (20_memory.md R54), computed as its meaning computes them. -/
def Sys2Proof.Claims.storesAt (i : Instr) (s : State) (a : Nat) : Prop :=
  match i with
  | .ldB _ => s.dataAddr 0 ≤ a ∧ a ≤ s.dataAddr 2
  | .ldMemStore x => s.dataAddr 0 ≤ a ∧ a ≤ s.dataAddr x.val
  | _ => False

/-- The instruction is one of those 10_state.md R23 names as writers of `I`. -/
def Sys2Proof.Claims.mayWriteI (i : Instr) (s : State) : Prop :=
  match i with
  | .ldI _ | .addI _ | .ldF _ | .ldHF _ => True
  | .ldMemStore _ | .ldMemLoad _ => s.cfg.lsIInc = .xPlusOne
  | _ => False

/-- The instruction is one of those 10_state.md R31 names as writers of `GFX`. -/
def Sys2Proof.Claims.mayDraw (i : Instr) : Prop :=
  match i with
  | .cls | .drw _ _ _ | .drw16 _ _ | .scu _ | .scd _ | .scr | .scl | .low | .high => True
  | _ => False

/-- A set bit of the sprite falls on the pixel of row `r`, column `c` (44_display.md R172): row `j`, column `k` of the
sprite, bit `w - 1 - k`, wraps to it. -/
def Sys2Proof.Claims.covers (width height col0 row0 : Nat) {w : Nat} (rows : List (BitVec w)) (r c : Nat) : Bool :=
  (List.range rows.length).any fun j => (List.range w).any fun k =>
    (row0 + j) % height == r && (col0 + k) % width == c && (rows.getD j 0).getLsbD (w - 1 - k)

/-- The rows an 8-wide sprite of `n` rows has in memory (44_display.md R171). -/
def Sys2Proof.Claims.rows8 (s : State) (n : Count) : List (BitVec 8) :=
  (List.range n.val).map fun r => s.readMem (s.i.toNat + r)

/-- The rows a 16-wide sprite has in memory (46_extended.md R217). -/
def Sys2Proof.Claims.rows16 (s : State) : List (BitVec 16) :=
  (List.range 16).map fun r => s.readMem (s.i.toNat + 2 * r) ++ s.readMem (s.i.toNat + 2 * r + 1)

/-- A pixel of the current buffer is covered by a sprite drawn at column `Vx`, row `Vy`. -/
def Sys2Proof.Claims.drawnOn (s : State) (x y : Reg) {w : Nat} (rows : List (BitVec w)) (r c : Nat) : Bool :=
  Claims.covers s.res.width s.res.height (s.getV x).toNat (s.getV y).toNat rows r c

/-- Only `GFX` may differ: it has the shape of the resolution in force, and its pixels are given by `f`. -/
def Sys2Proof.Claims.OnlyGfx (s t : State) (f : Nat → Nat → Bool) : Prop :=
  Screen.shaped s.res.width s.res.height t.gfx ∧
    (∀ r c, r < s.res.height → c < s.res.width → Screen.pixel t.gfx r c = f r c) ∧
    { t with gfx := s.gfx } = s ∧ Claims.SameMemory s t

/-! ## Encoding (30_encoding.md) -/

/-- DECODE AND ENCODE AGREE: the bytes of a well-formed instruction, with anything after them, decode to it, in either
build. Rests on the map of R74 and the order of R75 (decisions D2, D3). -/
def Obligations.DecodeOfEncodeIsTheInstruction : Prop :=
  ∀ (ext : Bool) (i : Instr) (rest : List Byte),
    WellFormed ext i = true → decode ext (encode i ++ rest) = .ok (i, rest)

/-- ENCODE AND DECODE AGREE: a word that decodes is the word of the instruction it decodes to, which is well formed. -/
def Obligations.EncodeOfDecodeIsTheWord : Prop :=
  ∀ (ext : Bool) (w : Word) (i : Instr),
    decodeWord ext w = some i → encodeWord i = w ∧ WellFormed ext i = true

/-- The words that decode to nothing are exactly those 30_encoding.md R76 lists, in each build (decision D3; the counts
R76 gives are not stated). -/
def Obligations.UnknownWordsAreThoseListed : Prop :=
  ∀ (ext : Bool) (w : Word), decodeWord ext w = none ↔ Claims.unknownWord ext w.toNat = true

/-- One word of each family, written out from the patterns of 30_encoding.md R74, and the two ends of R75 and R76. -/
def Obligations.SampleWordsDecodeAsTheMapSays : Prop :=
  decodeWord false 0x00E0 = some .cls ∧ decodeWord false 0x2210 = some (.call 0x210) ∧
  decodeWord false 0x3142 = some (.seImm 1 0x42) ∧ decodeWord false 0x8AB4 = some (.addReg 0xA 0xB) ∧
  decodeWord false 0xA210 = some (.ldI 0x210) ∧ decodeWord false 0xF265 = some (.ldMemLoad 2) ∧
  decodeWord false 0xD125 = some (.drw 1 2 5) ∧ decodeWord false 0xE49E = some (.skp 4) ∧
  decodeWord true 0x00B2 = some (.scu 2) ∧ decodeWord true 0xF175 = some (.ldRStore 1) ∧
  decodeWord true 0xD120 = some (.drw16 1 2) ∧ decodeWord false 0xD120 = some (.drw 1 2 0) ∧
  decodeWord false 0x00B2 = none ∧ decodeWord true 0xFFFF = none

/-- Two rows of the map match one word only where the first is DXY0 and the second DXYN; such a word is DXY0 with `EXT`
and DXYN with `n = 0` without it (30_encoding.md R75; decisions D2, D19). -/
def Obligations.OnlyTheDrawRowsShareAWord : Prop :=
  (opcodeRows.Pairwise fun r q => ∀ w, rowMatches r w = true → rowMatches q w = true →
    r.mnemonic = "DRW16" ∧ q.mnemonic = "DRW") ∧
  ∀ (x y : Reg), decodeWord true (wordOfNibbles 0xD x y 0) = some (.drw16 x y) ∧
    decodeWord false (wordOfNibbles 0xD x y 0) = some (.drw x y 0)

/-- 30_encoding.md R71: the fields are the stated bit fields, for every word. -/
def Obligations.FieldsAreTheBitFieldsOfTheWord : Prop :=
  ∀ w : Word,
    (nibble w 3).val = ((w >>> 12) &&& 0xF).toNat ∧ (fieldsOf w).x.val = ((w >>> 8) &&& 0xF).toNat ∧
    (fieldsOf w).y.val = ((w >>> 4) &&& 0xF).toNat ∧ (fieldsOf w).n.val = (w &&& 0xF).toNat ∧
    (fieldsOf w).nnn.toNat = (w &&& 0xFFF).toNat ∧ (fieldsOf w).kk.toNat = (w &&& 0xFF).toNat

/-- 30_encoding.md R70: the decoder takes exactly two bytes, the first the high byte of the word, whatever the build. -/
def Obligations.DecodingAlwaysTakesTwoBytes : Prop :=
  ∀ (ext : Bool) (bytes : List Byte) (i : Instr) (rest : List Byte), decode ext bytes = .ok (i, rest) →
    ∃ hi lo, bytes = hi :: lo :: rest ∧ decodeWord ext (BitVec.ofNat 16 (hi.toNat * 256 + lo.toNat)) = some i

/-! ## The instruction cycle (40_cycle.md) -/

/-- A STEP RUNS THE DECODED INSTRUCTION: in a running core whose fetch is in range, when the bytes at `PC` decode to `i`,
the step is `exec i` after the latch and the advance (R90). -/
def Obligations.StepRunsTheDecodedInstruction : Prop :=
  ∀ (s : State) (i : Instr) (rest : List Byte), s.cpu = .running → s.pc.toNat + 1 ≤ 0xFFF →
    decode s.cfg.ext [s.readMem s.pc.toNat, s.readMem (s.pc.toNat + 1)] = .ok (i, rest) →
    step s = exec i { s with op := BitVec.ofNat 16 (Claims.wordAtPC s), pc := s.pc + 2 }

/-- 40_cycle.md R92: after a fetch in range `OP` is the fetched word, whatever it decodes to. -/
def Obligations.FetchedWordIsLatched : Prop :=
  ∀ (s t : State), s.cpu = .running → s.pc.toNat + 1 ≤ 0xFFF → step s = .next t →
    t.op.toNat = Claims.wordAtPC s

/-- 40_cycle.md R94: a Step while Stopped changes nothing, and of all host commands only Reset leaves Stopped. -/
def Obligations.OnlyResetLeavesStopped : Prop :=
  ∀ s : State, s.cpu = .stopped → step s = .next s ∧ (∀ c, c ≠ .reset → (s.after c).cpu = .stopped) ∧
    (s.after .reset).cpu = .running

/-- A fetch with `PC + 1 > 0xFFF` stops the core and changes nothing else (40_cycle.md R91, the spec's decision D5). -/
def Obligations.FetchOutOfRangeStopsInPlace : Prop :=
  ∀ s : State, s.cpu = .running → 0xFFF < s.pc.toNat + 1 → step s = .next (Claims.faulted .fetchOutOfRange s)

/-- 40_cycle.md R95: an unknown word stops the core; the latch and the advance are the only other changes. -/
def Obligations.UnknownWordStopsTheCore : Prop :=
  ∀ s : State, s.cpu = .running → s.pc.toNat + 1 ≤ 0xFFF →
    Claims.unknownWord s.cfg.ext (Claims.wordAtPC s) = true →
    step s = .next { s with op := BitVec.ofNat 16 (Claims.wordAtPC s), pc := s.pc + 2, cpu := .stopped,
                            stop := some .unknownOpcode }

/-- Every step and every instruction answers a next state: the model refuses nothing. Rests on the stops being states of
the machine (40_cycle.md R90, log 7). -/
def Obligations.EveryStepAnswersANextState : Prop :=
  (∀ s, ∃ t, step s = .next t) ∧ ∀ i s, ∃ t, exec i s = .next t

/-- `PC` after an instruction that completes is what 40_cycle.md R98 says, for every instruction. -/
def Obligations.PcAfterEveryInstruction : Prop :=
  ∀ (i : Instr) (s t : State), exec i s = .next t → t.cpu = .running → t.pc.toNat = Claims.pcAfter i s

/-- 40_cycle.md R99: a step changes `DT` only by FX15 and `ST` only by FX18. -/
def Obligations.StepsDoNotCountTheTimers : Prop :=
  ∀ (s t : State), step s = .next t →
    (t.dt ≠ s.dt → ∃ x rest, decode s.cfg.ext s.fetchBytes = .ok (.ldDT x, rest)) ∧
    (t.st ≠ s.st → ∃ x rest, decode s.cfg.ext s.fetchBytes = .ok (.ldST x, rest))

/-- A stop in the execute phase is precise: none of the instruction's writes, only the record of the stop
(40_cycle.md R96, R97, 60_exceptions.md R243; the spec's decision D6). -/
def Obligations.StopsArePrecise : Prop :=
  ∀ (i : Instr) (s t : State), s.cpu = .running → s.stop = none → exec i s = .next t →
    (t.cpu = .stopped ∨ t.stop ≠ none) → ∃ f, t = Claims.faulted f s

/-- Every instruction raises exactly the fault of the table of 60_exceptions.md R241, in the order of R244, and none
otherwise (the spec's decisions D6 to D8, D12, D13, D21). -/
def Obligations.FaultsAreThoseOfTheTable : Prop :=
  ∀ (i : Instr) (s t : State), s.stop = none → exec i s = .next t → t.stop = (Claims.faultOf i s).map .fault

/-! ## Invariants that every step keeps -/

/-- Every step keeps `RAM` in canonical form (the model's form, log 17; 20_memory.md R50). -/
def Obligations.StepKeepsRamCanonical : Prop :=
  ∀ (s t : State), s.RamCanonical → step s = .next t → t.RamCanonical

/-- Every step keeps `GFX` at the size of the resolution in force (10_state.md R30, R31). -/
def Obligations.StepKeepsDisplayShaped : Prop :=
  ∀ (s t : State), s.DisplayShaped → step s = .next t → t.DisplayShaped

/-- Every step keeps `PC` at most 0x10FE and the stacked addresses at most 0x1000 (10_state.md R24, 41_flow.md R111). -/
def Obligations.StepKeepsPcBounded : Prop :=
  ∀ (s t : State), s.PcBounded → step s = .next t → t.PcBounded

/-- Every step keeps `STOP` none exactly while the core runs (10_state.md R36). No step changes the build; without the
extension the display stays in low resolution and the flag storage keeps its reset value (R30, R33). -/
def Obligations.StepKeepsTheStopRecordAndTheBuild : Prop :=
  ∀ (s t : State), step s = .next t →
    (s.StopRecorded → t.StopRecorded) ∧ t.cfg = s.cfg ∧ (s.BaseBuildPlain → t.BaseBuildPlain)

/-- The constructed core of every build meets every invariant, with the keypad released and the policy `Static`
(70_reset_and_hazards.md R281; the spec's decision D24); `State.reset` is such a core. -/
def Obligations.ConstructionMeetsTheInvariants : Prop :=
  (∀ cfg, (State.construct cfg).Inv ∧ (∀ k, (State.construct cfg).key k = false) ∧
    (State.construct cfg).policy = .static) ∧ State.reset.Inv

/-- Every host command keeps every invariant: steps, ticks, resets, loads and key events in any order
(60_exceptions.md R258). -/
def Obligations.EveryCommandKeepsTheInvariants : Prop :=
  ∀ (s : State) (cs : List Command), s.Inv → (s.runSchedule cs).Inv

/-! ## Frames over all instructions -/

/-- A byte of memory changes only where FX33 and FX55 store (20_memory.md R54). -/
def Obligations.OnlyStoresChangeMemory : Prop :=
  ∀ (i : Instr) (s t : State) (a : Nat), exec i s = .next t → ¬ Claims.storesAt i s a → t.readMem a = s.readMem a

/-- A general register changes only as a destination the instruction names, as the flag it defines, or in the block it
loads (10_state.md R21, R22). -/
def Obligations.RegistersHaveOnlyTheirNamedWriters : Prop :=
  ∀ (i : Instr) (s t : State) (j : Reg), exec i s = .next t → ¬ Claims.mayWrite i j → t.getV j = s.getV j

/-- Every other element has only the writers 10_state.md names (R23, R25 to R28, R30, R31, R33 to R35); no instruction
changes the build (log 1), and only RND draws (log 6). -/
def Obligations.SpecialStateHasOnlyItsNamedWriters : Prop :=
  ∀ (i : Instr) (s t : State), exec i s = .next t →
    (t.i ≠ s.i → Claims.mayWriteI i s) ∧
    (t.stack ≠ s.stack → ∃ nnn, i = .call nnn) ∧
    (t.sp ≠ s.sp → i = .ret ∨ ∃ nnn, i = .call nnn) ∧
    (t.dt ≠ s.dt → ∃ x, i = .ldDT x) ∧
    (t.st ≠ s.st → ∃ x, i = .ldST x) ∧
    (t.gfx ≠ s.gfx → Claims.mayDraw i) ∧
    (t.res ≠ s.res → i = .low ∨ i = .high) ∧
    (t.flags ≠ s.flags → ∃ x, i = .ldRStore x) ∧
    (t.keys ≠ s.keys → s.policy = .smooth ∧ ∃ x, i = .skp x ∨ i = .sknp x ∨ i = .ldK x) ∧
    (t.draws ≠ s.draws → ∃ x kk, i = .rnd x kk) ∧
    t.policy = s.policy ∧ t.op = s.op ∧ t.cfg = s.cfg

/-! ## Control transfer (41_flow.md) -/

/-- 41_flow.md R113: JP sets `PC` to `nnn` and changes nothing else. -/
def Obligations.JumpGoesToItsTarget : Prop :=
  ∀ (ext : Bool) (nnn : Index) (s : State),
    decodeWord ext (BitVec.ofNat 16 (0x1000 + nnn.toNat)) = some (.jp nnn) ∧
    ∃ t, exec (.jp nnn) s = .next t ∧ Claims.OnlyPC s t (BitVec.ofNat 16 nnn.toNat)

/-- JP V0 goes to `nnn + V0`, exactly, with no wrap and no stop (41_flow.md R118; decisions D4, D5). -/
def Obligations.OffsetJumpGoesToTheSum : Prop :=
  ∀ (nnn : Index) (s : State),
    ∃ t, exec (.jpV0 nnn) s = .next t ∧ t.pc.toNat = nnn.toNat + (s.getV 0).toNat ∧ t.pc.toNat ≤ 0x10FE ∧
      { t with pc := s.pc } = s ∧ Claims.SameMemory s t

/-- CALL pushes the advanced `PC` and jumps; with sixteen entries it stops (41_flow.md R112; the spec's decision D8 for
the stop). -/
def Obligations.CallPushesTheReturnAddress : Prop :=
  ∀ (nnn : Index) (s : State),
    (s.sp.val ≤ 15 →
      ∃ t, exec (.call nnn) s = .next t ∧ t.pc.toNat = nnn.toNat ∧ t.sp.val = s.sp.val + 1 ∧
        t.stack[s.sp.val]? = some s.pc ∧ (∀ j, j ≠ s.sp.val → t.stack[j]? = s.stack[j]?) ∧
        { t with pc := s.pc, sp := s.sp, stack := s.stack } = s ∧ Claims.SameMemory s t) ∧
    (s.sp = 16 → exec (.call nnn) s = .next (Claims.faulted .stackOverflow s))

/-- RET takes the newest entry, which keeps its value; on an empty stack it stops (41_flow.md R111; the spec's decision
D8 for the stop). -/
def Obligations.ReturnTakesTheNewestEntry : Prop :=
  ∀ s : State,
    (1 ≤ s.sp.val →
      ∃ t, exec .ret s = .next t ∧ s.stack[s.sp.val - 1]? = some t.pc ∧ t.sp.val + 1 = s.sp.val ∧
        { t with pc := s.pc, sp := s.sp } = s ∧ Claims.SameMemory s t) ∧
    (s.sp = 0 → exec .ret s = .next (Claims.faulted .stackUnderflow s))

/-- A CALL and the RET that follows code leaving the stack balanced come back to the advanced `PC` with the old `SP`
(41_flow.md R119, derived there from R111 and R112). -/
def Obligations.CallThenReturnComesBack : Prop :=
  ∀ (nnn : Index) (s t u : State), s.sp.val ≤ 15 → exec (.call nnn) s = .next t →
    u.sp = t.sp → (∀ j, j < t.sp.val → u.stack[j]? = t.stack[j]?) →
    ∃ w, exec .ret u = .next w ∧ w.pc = s.pc ∧ w.sp = s.sp

/-- The four skips pass over one word when their condition holds, and change nothing but `PC` (41_flow.md R114 to R117;
the conditions are the spec's general knowledge G1). -/
def Obligations.SkipsPassOverOneWord : Prop :=
  ∀ (x y : Reg) (kk : Byte) (s : State),
    (∃ t, exec (.seImm x kk) s = .next t ∧ Claims.OnlyPC s t (if s.getV x = kk then s.pc + 2 else s.pc)) ∧
    (∃ t, exec (.sneImm x kk) s = .next t ∧ Claims.OnlyPC s t (if s.getV x = kk then s.pc else s.pc + 2)) ∧
    (∃ t, exec (.seReg x y) s = .next t ∧ Claims.OnlyPC s t (if s.getV x = s.getV y then s.pc + 2 else s.pc)) ∧
    (∃ t, exec (.sneReg x y) s = .next t ∧ Claims.OnlyPC s t (if s.getV x = s.getV y then s.pc else s.pc + 2))

/-! ## Loads, arithmetic and logic (42_alu.md) -/

/-- The loads, the immediate addition and the logic write `Vx` alone: `VF` is no flag of theirs (42_alu.md R131 to R136;
the semantics are the spec's general knowledge G1, the kept `VF` its decision D10). -/
def Obligations.LoadsAndLogicWriteOnlyVx : Prop :=
  ∀ (x y : Reg) (kk : Byte) (s : State),
    (∃ t, exec (.ldImm x kk) s = .next t ∧ Claims.OnlyReg s t x kk) ∧
    (∃ t, exec (.addImm x kk) s = .next t ∧
      Claims.OnlyReg s t x (BitVec.ofNat 8 ((s.getV x).toNat + kk.toNat))) ∧
    (∃ t, exec (.ldReg x y) s = .next t ∧ Claims.OnlyReg s t x (s.getV y)) ∧
    (∃ t, exec (.orReg x y) s = .next t ∧ Claims.OnlyReg s t x (s.getV x ||| s.getV y)) ∧
    (∃ t, exec (.andReg x y) s = .next t ∧ Claims.OnlyReg s t x (s.getV x &&& s.getV y)) ∧
    (∃ t, exec (.xorReg x y) s = .next t ∧ Claims.OnlyReg s t x (s.getV x ^^^ s.getV y))

/-- ADD Vx, Vy writes the wrapped sum, then the carry into `VF`, last (42_alu.md R130, R137; general knowledge G1,
decision D9). -/
def Obligations.AdditionWritesSumThenCarry : Prop :=
  ∀ (x y : Reg) (s : State), ∃ t, exec (.addReg x y) s = .next t ∧
    Claims.RegAndFlag s t x (BitVec.ofNat 8 ((s.getV x).toNat + (s.getV y).toNat))
      (if 0xFF < (s.getV x).toNat + (s.getV y).toNat then 1 else 0)

/-- SUB and SUBN write the wrapped difference, then NOT borrow into `VF`, last: 1 at equal operands (42_alu.md R130,
R138, R140; general knowledge G1, decisions D9, D33). -/
def Obligations.SubtractionsWriteDifferenceThenNotBorrow : Prop :=
  ∀ (x y : Reg) (s : State),
    (∃ t, exec (.sub x y) s = .next t ∧
      Claims.RegAndFlag s t x (BitVec.ofInt 8 ((s.getV x).toNat - (s.getV y).toNat : Int))
        (if (s.getV y).toNat ≤ (s.getV x).toNat then 1 else 0)) ∧
    (∃ t, exec (.subn x y) s = .next t ∧
      Claims.RegAndFlag s t x (BitVec.ofInt 8 ((s.getV y).toNat - (s.getV x).toNat : Int))
        (if (s.getV x).toNat ≤ (s.getV y).toNat then 1 else 0))

/-- SHR and SHL read `Vx` or `Vy` by `SHIFT_SRC`, write the shifted value, then the bit shifted out into `VF`, last
(42_alu.md R130, R139, R141; general knowledge G1, decisions D9, D11). -/
def Obligations.ShiftsWriteResultThenTheBitShiftedOut : Prop :=
  ∀ (x y : Reg) (s : State) (src : Nat),
    src = (if s.cfg.shiftSrc = .x then s.getV x else s.getV y).toNat →
    (∃ t, exec (.shr x y) s = .next t ∧
      Claims.RegAndFlag s t x (BitVec.ofNat 8 (src / 2)) (BitVec.ofNat 8 (src % 2))) ∧
    (∃ t, exec (.shl x y) s = .next t ∧
      Claims.RegAndFlag s t x (BitVec.ofNat 8 (src * 2)) (BitVec.ofNat 8 (src / 128)))

/-- RND writes a fresh draw under the mask `kk`: 0 with `kk = 0`, whatever the draw. The draw is the model's free value,
`Config.drawByte` of the draw count (42_alu.md R142; decision D23, log 6). -/
def Obligations.RandomByteIsADrawUnderTheMask : Prop :=
  ∀ (x : Reg) (kk : Byte) (s : State), ∃ t, exec (.rnd x kk) s = .next t ∧
    t.getV x = (Config.drawByte s.draws &&& kk) ∧ (kk = 0 → t.getV x = 0) ∧ t.draws = s.draws + 1 ∧
    (∀ j, j ≠ x → t.getV j = s.getV j) ∧ { t with v := s.v, draws := s.draws } = s ∧ Claims.SameMemory s t

/-! ## Index register and memory transfer (43_index_memory.md) -/

/-- 43_index_memory.md R151: LD I, nnn sets `I` to `nnn` and changes nothing else. -/
def Obligations.LoadIndexSetsI : Prop :=
  ∀ (ext : Bool) (nnn : Index) (s : State),
    decodeWord ext (BitVec.ofNat 16 (0xA000 + nnn.toNat)) = some (.ldI nnn) ∧
    ∃ t, exec (.ldI nnn) s = .next t ∧ Claims.OnlyI s t nnn.toNat

/-- ADD I, Vx adds exactly, and stops where the sum would exceed 0xFFF; `VF` is not written (43_index_memory.md R152;
the spec's decision D7). -/
def Obligations.AddToIndexIsExactOrStops : Prop :=
  ∀ (x : Reg) (s : State),
    (s.i.toNat + (s.getV x).toNat ≤ 0xFFF →
      ∃ t, exec (.addI x) s = .next t ∧ Claims.OnlyI s t (s.i.toNat + (s.getV x).toNat)) ∧
    (0xFFF < s.i.toNat + (s.getV x).toNat → exec (.addI x) s = .next (Claims.faulted .indexOverflow s))

/-- LD F and LD HF point `I` at the glyph of `Vx`, not masked (43_index_memory.md R153, 46_extended.md R218; the spec's
decisions D20, D36). -/
def Obligations.GlyphLoadsPointIndexAtTheGlyph : Prop :=
  ∀ (x : Reg) (s : State),
    (∃ t, exec (.ldF x) s = .next t ∧ Claims.OnlyI s t ((s.getV x).toNat * 5)) ∧
    (∃ t, exec (.ldHF x) s = .next t ∧ Claims.OnlyI s t (0x50 + (s.getV x).toNat * 10))

/-- LD B stores the three decimal digits at `I`, `I+1`, `I+2` and nothing else, or stops (43_index_memory.md R154; the
spec's decision D6 for the stop). -/
def Obligations.DecimalDigitsGoToThreeAddresses : Prop :=
  ∀ (x : Reg) (s : State),
    (s.i.toNat ≤ 0xFFD →
      ∃ t, exec (.ldB x) s = .next t ∧
        (t.readMem (s.dataAddr 0)).toNat = (s.getV x).toNat / 100 ∧
        (t.readMem (s.dataAddr 1)).toNat = (s.getV x).toNat / 10 % 10 ∧
        (t.readMem (s.dataAddr 2)).toNat = (s.getV x).toNat % 10 ∧
        (∀ a, a < s.dataAddr 0 ∨ s.dataAddr 2 < a → t.readMem a = s.readMem a) ∧ { t with ram := s.ram } = s) ∧
    (0xFFD < s.i.toNat → exec (.ldB x) s = .next (Claims.faulted .memOutOfRange s))

/-- FX55 stores `V0` to `Vx` from `I` up and nothing else, advances `I` only with `LS_I_INC = X_PLUS_1`, or stops having
stored nothing (43_index_memory.md R155; the spec's decisions D6, D12). -/
def Obligations.BlockStoreWritesTheRegisters : Prop :=
  ∀ (x : Reg) (s : State),
    (Claims.faultOf (.ldMemStore x) s = none →
      ∃ t, exec (.ldMemStore x) s = .next t ∧
        (∀ j, j ≤ x → t.readMem (s.dataAddr j.val) = s.getV j) ∧
        (∀ a, a < s.dataAddr 0 ∨ s.dataAddr x.val < a → t.readMem a = s.readMem a) ∧
        t.i.toNat = (if s.cfg.lsIInc = .xPlusOne then s.i.toNat + x.val + 1 else s.i.toNat) ∧
        { t with ram := s.ram, i := s.i } = s) ∧
    (0xFFF < s.i.toNat + x.val → exec (.ldMemStore x) s = .next (Claims.faulted .memOutOfRange s)) ∧
    (s.i.toNat + x.val = 0xFFF → s.cfg.lsIInc = .xPlusOne →
      exec (.ldMemStore x) s = .next (Claims.faulted .indexOverflow s))

/-- FX65 loads `V0` to `Vx` from `I` up and nothing else, advances `I` only with `LS_I_INC = X_PLUS_1`, or stops
(43_index_memory.md R156; the spec's decisions D6, D12). -/
def Obligations.BlockLoadFillsTheRegisters : Prop :=
  ∀ (x : Reg) (s : State),
    (Claims.faultOf (.ldMemLoad x) s = none →
      ∃ t, exec (.ldMemLoad x) s = .next t ∧
        (∀ j, j ≤ x → t.getV j = s.readMem (s.i.toNat + j.val)) ∧
        (∀ j, x < j → t.getV j = s.getV j) ∧
        t.i.toNat = (if s.cfg.lsIInc = .xPlusOne then s.i.toNat + x.val + 1 else s.i.toNat) ∧
        { t with v := s.v, i := s.i } = s ∧ Claims.SameMemory s t) ∧
    (0xFFF < s.i.toNat + x.val → exec (.ldMemLoad x) s = .next (Claims.faulted .memOutOfRange s)) ∧
    (s.i.toNat + x.val = 0xFFF → s.cfg.lsIInc = .xPlusOne →
      exec (.ldMemLoad x) s = .next (Claims.faulted .indexOverflow s))

/-! ## Display (44_display.md) -/

/-- 44_display.md R170: CLS clears every pixel of the buffer of the resolution in force, which is kept; `VF` is
unchanged. -/
def Obligations.ClearScreenClearsEveryPixel : Prop :=
  ∀ (ext : Bool) (s : State), decodeWord ext 0x00E0 = some .cls ∧
    ∃ t, exec .cls s = .next t ∧ Claims.OnlyGfx s t fun _ _ => false

/-- SpriteXor, its loop of single writes, is a pointwise XOR with the wrapped sprite, and it collides iff a covered pixel
was set, for a sprite no larger than the buffer (44_display.md R172; decision D15). -/
def Obligations.SpriteXorIsPointwise : Prop :=
  ∀ (width height col0 row0 w : Nat) (rows : List (BitVec w)) (g : Pixels),
    w ≤ width → rows.length ≤ height → Screen.shaped width height g →
    Screen.shaped width height (Screen.spriteXor width height col0 row0 rows g).gfx ∧
    (∀ r c, r < height → c < width →
      Screen.pixel (Screen.spriteXor width height col0 row0 rows g).gfx r c =
        (Screen.pixel g r c ^^ Claims.covers width height col0 row0 rows r c)) ∧
    ((Screen.spriteXor width height col0 row0 rows g).collide = true ↔
      ∃ r c, Claims.covers width height col0 row0 rows r c = true ∧ Screen.pixel g r c = true)

/-- DRW and the 16 x 16 DRW change the covered pixels and `VF`, which ends 1 iff a pixel went from set to clear, or stop
having drawn nothing (44_display.md R171, 46_extended.md R217; the spec's decisions D6, D9, D15, D19, general knowledge
G3). -/
def Obligations.DrawsXorTheSpriteAndReportCollision : Prop :=
  ∀ (x y : Reg) (n : Count) (s : State), s.DisplayShaped →
    (s.i.toNat + n.val ≤ 4096 →
      ∃ t, exec (.drw x y n) s = .next t ∧
        (∀ r c, r < s.res.height → c < s.res.width → Screen.pixel t.gfx r c =
          (Screen.pixel s.gfx r c ^^ Claims.drawnOn s x y (Claims.rows8 s n) r c)) ∧
        (t.getV 15 = 0 ∨ t.getV 15 = 1) ∧
        (t.getV 15 = 1 ↔ ∃ r c, Claims.drawnOn s x y (Claims.rows8 s n) r c = true ∧ Screen.pixel s.gfx r c = true) ∧
        (∀ j, j ≠ 15 → t.getV j = s.getV j) ∧ t.DisplayShaped ∧
        { t with v := s.v, gfx := s.gfx } = s ∧ Claims.SameMemory s t) ∧
    (s.i.toNat ≤ 0xFE0 →
      ∃ t, exec (.drw16 x y) s = .next t ∧
        (∀ r c, r < s.res.height → c < s.res.width → Screen.pixel t.gfx r c =
          (Screen.pixel s.gfx r c ^^ Claims.drawnOn s x y (Claims.rows16 s) r c)) ∧
        (t.getV 15 = 0 ∨ t.getV 15 = 1) ∧
        (t.getV 15 = 1 ↔ ∃ r c, Claims.drawnOn s x y (Claims.rows16 s) r c = true ∧ Screen.pixel s.gfx r c = true) ∧
        (∀ j, j ≠ 15 → t.getV j = s.getV j) ∧ t.DisplayShaped ∧
        { t with v := s.v, gfx := s.gfx } = s ∧ Claims.SameMemory s t) ∧
    (n ≠ 0 → 0xFFF < s.i.toNat + n.val - 1 →
      exec (.drw x y n) s = .next (Claims.faulted .memOutOfRange s)) ∧
    (0xFE0 < s.i.toNat → exec (.drw16 x y) s = .next (Claims.faulted .memOutOfRange s))

/-- Drawing the same sprite twice at the same place restores the buffer; the second draw sets `VF` iff a covered pixel
was clear at first, so on a buffer clear under the sprite iff the sprite has a set pixel (44_display.md R171; its corner
case says "whenever", which its own pseudocode does not give where the covered pixels were set, log 14). -/
def Obligations.DrawingTwiceRestoresTheBuffer : Prop :=
  ∀ (x y : Reg) (n : Count) (s : State), x ≠ 15 → y ≠ 15 → s.DisplayShaped → s.i.toNat + n.val ≤ 4096 →
    ∃ t u, exec (.drw x y n) s = .next t ∧ exec (.drw x y n) t = .next u ∧ u.gfx = s.gfx ∧
      (u.getV 15 = 1 ↔ ∃ r c, Claims.drawnOn s x y (Claims.rows8 s n) r c = true ∧ Screen.pixel s.gfx r c = false)

/-! ## Keypad and timers (45_keys_timers.md) -/

/-- SKP and SKNP skip on the state of key `Vx`; under `Smooth` that key is released after, under `Static` no key changes;
a value above 15 stops (45_keys_timers.md R190 to R192; the spec's decisions D13, D14). -/
def Obligations.KeySkipsReadAndConsumeTheKey : Prop :=
  ∀ (x : Reg) (s : State) (k : Nat), k = (s.getV x).toNat →
    (k ≤ 15 →
      (∃ t, exec (.skp x) s = .next t ∧ t.pc = (if s.key k = true then s.pc + 2 else s.pc) ∧
        (∀ j, t.key j = if s.policy = .smooth ∧ j = k then false else s.key j) ∧
        { t with pc := s.pc, keys := s.keys } = s ∧ Claims.SameMemory s t) ∧
      (∃ t, exec (.sknp x) s = .next t ∧ t.pc = (if s.key k = true then s.pc else s.pc + 2) ∧
        (∀ j, t.key j = if s.policy = .smooth ∧ j = k then false else s.key j) ∧
        { t with pc := s.pc, keys := s.keys } = s ∧ Claims.SameMemory s t)) ∧
    (15 < k → exec (.skp x) s = .next (Claims.faulted .keyIndex s) ∧
      exec (.sknp x) s = .next (Claims.faulted .keyIndex s))

/-- LD Vx, K with a key pressed takes the lowest one, consumed under `Smooth`; with none it goes back by two
(45_keys_timers.md R193, 60_exceptions.md R254; general knowledge G1, decision D14). -/
def Obligations.KeyWaitTakesTheLowestKeyOrRetries : Prop :=
  ∀ (x : Reg) (s : State),
    ((∀ k < 16, s.key k = false) → ∃ t, exec (.ldK x) s = .next t ∧ Claims.OnlyPC s t (s.pc - 2)) ∧
    ∀ k, k < 16 → s.key k = true → (∀ j < k, s.key j = false) →
      ∃ t, exec (.ldK x) s = .next t ∧ (t.getV x).toNat = k ∧ (∀ j, j ≠ x → t.getV j = s.getV j) ∧
        (∀ j, t.key j = if s.policy = .smooth ∧ j = k then false else s.key j) ∧
        { t with v := s.v, keys := s.keys } = s ∧ Claims.SameMemory s t

/-- FX07 reads `DT`, FX15 writes `DT`, FX18 writes `ST`, and nothing else changes (45_keys_timers.md R194 to R196; the
mapping is the spec's general knowledge G1). -/
def Obligations.TimerInstructionsMoveOneByte : Prop :=
  ∀ (x : Reg) (s : State),
    (∃ t, exec (.ldVxDT x) s = .next t ∧ Claims.OnlyReg s t x s.dt) ∧
    (∃ t, exec (.ldDT x) s = .next t ∧ t.dt = s.getV x ∧ { t with dt := s.dt } = s ∧ Claims.SameMemory s t) ∧
    (∃ t, exec (.ldST x) s = .next t ∧ t.st = s.getV x ∧ { t with st := s.st } = s ∧ Claims.SameMemory s t)

/-! ## Super-CHIP (46_extended.md) -/

/-- The scrolls move every pixel of the buffer by `n` rows or 4 columns, clear what is vacated, wrap nothing and change
nothing else (46_extended.md R211 to R214; the spec's decision D18, general knowledge G5). -/
def Obligations.ScrollsMoveTheBufferAndClearTheRest : Prop :=
  ∀ (n : Count) (s : State),
    (∃ t, exec (.scu n) s = .next t ∧ Claims.OnlyGfx s t fun r c =>
      if r + n.val < s.res.height then Screen.pixel s.gfx (r + n.val) c else false) ∧
    (∃ t, exec (.scd n) s = .next t ∧ Claims.OnlyGfx s t fun r c =>
      if n.val ≤ r then Screen.pixel s.gfx (r - n.val) c else false) ∧
    (∃ t, exec .scr s = .next t ∧ Claims.OnlyGfx s t fun r c =>
      if 4 ≤ c then Screen.pixel s.gfx r (c - 4) else false) ∧
    (∃ t, exec .scl s = .next t ∧ Claims.OnlyGfx s t fun r c =>
      if c + 4 < s.res.width then Screen.pixel s.gfx r (c + 4) else false)

/-- LOW and HIGH switch the resolution and rescale the buffer, by functions nothing is known of, and change nothing in
the resolution already in force (46_extended.md R215, R216; the spec's decisions D16, D17, log 5). -/
def Obligations.ResolutionSwitchesRescaleTheBuffer : Prop :=
  ∀ s : State,
    (∃ t, exec .low s = .next t ∧ t.res = .low ∧ { t with res := s.res, gfx := s.gfx } = s ∧
      (s.res = .low → t = s) ∧ Claims.SameMemory s t ∧
      (s.res = .high → Screen.shaped 64 32 t.gfx ∧
        ∀ r c, r < 32 → c < 64 → Screen.pixel t.gfx r c = Config.rescaleDownPixel s.gfx r c)) ∧
    (∃ t, exec .high s = .next t ∧ t.res = .high ∧ { t with res := s.res, gfx := s.gfx } = s ∧
      (s.res = .high → t = s) ∧ Claims.SameMemory s t ∧
      (s.res = .low → Screen.shaped 128 64 t.gfx ∧
        ∀ r c, r < 64 → c < 128 → Screen.pixel t.gfx r c = Config.rescaleUpPixel s.gfx r c))

/-- FX75 saves `V0` to `Vx` into the flag storage and FX85 restores them, for `x <= 7`; beyond, they stop
(46_extended.md R219, R220; the spec's decision D21). -/
def Obligations.FlagStorageSavesAndRestores : Prop :=
  ∀ (x : Reg) (s : State),
    (x.val ≤ 7 →
      (∃ t, exec (.ldRStore x) s = .next t ∧
        (∀ j : Reg, (h : j.val < 8) → t.flags[j.val] = if j ≤ x then s.getV j else s.flags[j.val]) ∧
        { t with flags := s.flags } = s ∧ Claims.SameMemory s t) ∧
      (∃ t, exec (.ldRLoad x) s = .next t ∧
        (∀ j : Reg, j ≤ x → s.flags[j.val]? = some (t.getV j)) ∧ (∀ j, x < j → t.getV j = s.getV j) ∧
        { t with v := s.v } = s ∧ Claims.SameMemory s t)) ∧
    (7 < x.val → exec (.ldRStore x) s = .next (Claims.faulted .flagIndex s) ∧
      exec (.ldRLoad x) s = .next (Claims.faulted .flagIndex s))

/-! ## The host's commands (60_exceptions.md, 70_reset_and_hazards.md) -/

/-- Any number of Ticks takes that much off each timer, saturating at 0, whatever `CPU` is, and changes nothing else
(60_exceptions.md R249, R250, R259; the spec's decision D26). -/
def Obligations.TicksCountDownAndSaturate : Prop :=
  ∀ (n : Nat) (s : State),
    (s.runSchedule (List.replicate n .tick)).dt.toNat = s.dt.toNat - n ∧
    (s.runSchedule (List.replicate n .tick)).st.toNat = s.st.toNat - n ∧
    { s.runSchedule (List.replicate n .tick) with dt := s.dt, st := s.st } = s

/-- 60_exceptions.md R251: the sound output is on exactly while `ST > 0`. -/
def Obligations.SoundIsOnWhileSoundTimerRuns : Prop := ∀ s : State, s.sound = true ↔ s.st ≠ 0

/-- Reset writes every element its reset value, keeps `KEY` and `POLICY`, and leaves the fonts and zeros in `RAM`
(70_reset_and_hazards.md R280, 10_state.md R29; the values but `PC`'s are the spec's decision D24; that the draw count
and the build are kept is the model's choice, logs 1, 6). -/
def Obligations.ResetGivesEveryElementItsResetValue : Prop :=
  ∀ s : State, ∃ t, s.command .reset = .next t ∧
    (∀ x, t.getV x = 0) ∧ t.i = 0 ∧ t.pc = 0x200 ∧ (∀ j, (h : j < 16) → t.stack[j] = 0) ∧ t.sp = 0 ∧ t.op = 0 ∧
    t.dt = 0 ∧ t.st = 0 ∧ t.res = .low ∧ Screen.shaped 64 32 t.gfx ∧ (∀ r c, Screen.pixel t.gfx r c = false) ∧
    t.cpu = .running ∧ (∀ j, (h : j < 8) → t.flags[j] = 0) ∧ t.stop = none ∧
    t.keys = s.keys ∧ t.policy = s.policy ∧ t.cfg = s.cfg ∧ t.draws = s.draws ∧
    (∀ a, (h : a < 80) → t.readMem a = s.cfg.font[a]) ∧
    (∀ a, (h : a < 160) → t.readMem (0x50 + a) = if s.cfg.ext then s.cfg.bigFont[a] else 0) ∧
    ∀ a, 0xF0 ≤ a → t.readMem a = 0

/-- Load writes an image of at most 3584 bytes from 0x200 and nothing else; a longer one is refused and changes nothing
(70_reset_and_hazards.md R282; the spec's decisions D25, D34). -/
def Obligations.LoadWritesTheImageOrIsRefused : Prop :=
  ∀ (s : State) (image : List Byte),
    (image.length ≤ 3584 →
      ∃ t, s.command (.load image) = .next t ∧
        (∀ k, (h : k < image.length) → t.readMem (0x200 + k) = image[k]) ∧
        (∀ a, a < 0x200 ∨ 0x200 + image.length ≤ a → t.readMem a = s.readMem a) ∧ { t with ram := s.ram } = s) ∧
    (3584 < image.length → s.command (.load image) = .refused .loadTooLarge ∧ s.after (.load image) = s)

/-- The keypad commands change the named key or the policy and nothing else (60_exceptions.md R253; decision D1). -/
def Obligations.KeypadCommandsChangeOnlyTheKeypad : Prop :=
  ∀ (s : State) (k : Fin 16) (p : Policy),
    (∃ t, s.command (.keyDown k) = .next t ∧ (∀ j, t.key j = if j = k.val then true else s.key j) ∧
      { t with keys := s.keys } = s) ∧
    (∃ t, s.command (.keyUp k) = .next t ∧ (∀ j, t.key j = if j = k.val then false else s.key j) ∧
      { t with keys := s.keys } = s) ∧
    s.command (.clearKey k) = s.command (.keyUp k) ∧
    (∃ t, s.command (.setPolicy p) = .next t ∧ t.policy = p ∧ { t with policy := s.policy } = s)

/-- The host's flat buffer has `W * H` elements, the pixel of row `r`, column `c` at `r * W + c` (10_state.md R31,
60_exceptions.md R257; decision D15). -/
def Obligations.FramebufferIsRowMajor : Prop :=
  ∀ s : State, s.DisplayShaped →
    s.framebuffer.1.length = s.res.width * s.res.height ∧
    ∀ r c, r < s.res.height → c < s.res.width →
      s.framebuffer.1[r * s.res.width + c]? = some (Screen.pixel s.gfx r c)

/-- A word of the opcode table placed where the next step fetches is the instruction that step runs, in an extended
build (the model's own interface, logs 18, 19). -/
def Obligations.PlacedWordIsTheNextInstruction : Prop :=
  ∀ (s : State) (nbits w : Nat) (i : Instr), s.cfg.ext = true → decodeTableWord nbits w = some i →
    step (s.withFetchWord nbits w) =
      exec i { s.withFetchWord nbits w with op := tableWord nbits w, pc := (s.withFetchWord nbits w).pc + 2 }
end

