-- ==== Sys2Proof/Laws/Decode.lean ====
section
/-! SUPPORT. The nibbles and fields of the words the encoder builds (30_encoding.md R71, R72). -/

namespace Sys2Proof

theorem nibble_val (w : Word) (k : Nat) : (nibble w k).val = w.toNat / 2 ^ (4 * k) % 16 := by
  simp [nibble, Fin.ofNat, Nat.shiftRight_eq_div_pow]

theorem toNat_wordOfNibbles (c x y n : Fin 16) :
    (wordOfNibbles c x y n).toNat = c.val * 4096 + x.val * 256 + y.val * 16 + n.val := by
  rw [wordOfNibbles, BitVec.toNat_ofNat, Nat.mod_eq_of_lt]; omega

theorem toNat_wordNNN (c : Fin 16) (nnn : Index) : (wordNNN c nnn).toNat = c.val * 4096 + nnn.toNat := by
  have := nnn.isLt
  rw [wordNNN, BitVec.toNat_ofNat, Nat.mod_eq_of_lt]; omega

theorem toNat_wordXKK (c x : Fin 16) (kk : Byte) :
    (wordXKK c x kk).toNat = c.val * 4096 + x.val * 256 + kk.toNat := by
  have := kk.isLt
  rw [wordXKK, BitVec.toNat_ofNat, Nat.mod_eq_of_lt]; omega

section Nibbles

variable (c x y n : Fin 16) (nnn : Index) (kk : Byte)

@[simp] theorem nibble_wordOfNibbles_three : nibble (wordOfNibbles c x y n) 3 = c := by
  apply Fin.ext; rw [nibble_val, toNat_wordOfNibbles]; omega

@[simp] theorem nibble_wordOfNibbles_two : nibble (wordOfNibbles c x y n) 2 = x := by
  apply Fin.ext; rw [nibble_val, toNat_wordOfNibbles]; omega

@[simp] theorem nibble_wordOfNibbles_one : nibble (wordOfNibbles c x y n) 1 = y := by
  apply Fin.ext; rw [nibble_val, toNat_wordOfNibbles]; omega

@[simp] theorem nibble_wordOfNibbles_zero : nibble (wordOfNibbles c x y n) 0 = n := by
  apply Fin.ext; rw [nibble_val, toNat_wordOfNibbles]; omega

@[simp] theorem nibble_wordNNN_three : nibble (wordNNN c nnn) 3 = c := by
  have := nnn.isLt
  apply Fin.ext; rw [nibble_val, toNat_wordNNN]; omega

@[simp] theorem nibble_wordXKK_three : nibble (wordXKK c x kk) 3 = c := by
  have := kk.isLt
  apply Fin.ext; rw [nibble_val, toNat_wordXKK]; omega

@[simp] theorem nibble_wordXKK_two : nibble (wordXKK c x kk) 2 = x := by
  have := kk.isLt
  apply Fin.ext; rw [nibble_val, toNat_wordXKK]; omega

@[simp] theorem fieldsOf_wordNNN_nnn : (fieldsOf (wordNNN c nnn)).nnn = nnn := by
  have := nnn.isLt
  apply BitVec.eq_of_toNat_eq
  simp only [fieldsOf, BitVec.toNat_ofNat, toNat_wordNNN]; omega

@[simp] theorem fieldsOf_wordXKK_kk : (fieldsOf (wordXKK c x kk)).kk = kk := by
  have := kk.isLt
  apply BitVec.eq_of_toNat_eq
  simp only [fieldsOf, BitVec.toNat_ofNat, toNat_wordXKK]; omega

@[simp] theorem fieldsOf_wordXKK_x : (fieldsOf (wordXKK c x kk)).x = x := nibble_wordXKK_two c x kk

@[simp] theorem fieldsOf_wordOfNibbles_x : (fieldsOf (wordOfNibbles c x y n)).x = x :=
  nibble_wordOfNibbles_two c x y n

@[simp] theorem fieldsOf_wordOfNibbles_y : (fieldsOf (wordOfNibbles c x y n)).y = y :=
  nibble_wordOfNibbles_one c x y n

@[simp] theorem fieldsOf_wordOfNibbles_n : (fieldsOf (wordOfNibbles c x y n)).n = n :=
  nibble_wordOfNibbles_zero c x y n

end Nibbles

/-- The bytes of a word make the word (20_memory.md R51). -/
theorem wordOfBytes_bytesOfWord (w : Word) :
    wordOfBytes (w.extractLsb' 8 8) (w.extractLsb' 0 8) = w := by
  apply BitVec.eq_of_toNat_eq
  have := w.isLt
  simp only [wordOfBytes, BitVec.toNat_append, BitVec.extractLsb'_toNat, Nat.shiftRight_eq_div_pow]
  rw [← Nat.shiftLeft_add_eq_or_of_lt (by omega), Nat.shiftLeft_eq]
  omega

/-- The byte at the lower address is the high byte of the word (20_memory.md R51). -/
theorem toNat_wordOfBytes (hi lo : Byte) : (wordOfBytes hi lo).toNat = hi.toNat * 256 + lo.toNat := by
  simp only [wordOfBytes, BitVec.toNat_append]
  rw [← Nat.shiftLeft_add_eq_or_of_lt lo.isLt, Nat.shiftLeft_eq]

end Sys2Proof
end

