-- ==== Sys2Proof/Laws/State.lean ====
section
/-! SUPPORT. One lemma per field per update of the state, all true by `rfl` or by one case split, so that no later proof
unfolds an update. -/

namespace Sys2Proof.Machine

variable (s : State)

/-! ## setV -/

@[simp] theorem State.setV_cfg (x : Reg) (b : Byte) : (s.setV x b).cfg = s.cfg := rfl
@[simp] theorem State.setV_v (x : Reg) (b : Byte) : (s.setV x b).v = s.v.set x.val b x.isLt := rfl
@[simp] theorem State.setV_i (x : Reg) (b : Byte) : (s.setV x b).i = s.i := rfl
@[simp] theorem State.setV_pc (x : Reg) (b : Byte) : (s.setV x b).pc = s.pc := rfl
@[simp] theorem State.setV_stack (x : Reg) (b : Byte) : (s.setV x b).stack = s.stack := rfl
@[simp] theorem State.setV_sp (x : Reg) (b : Byte) : (s.setV x b).sp = s.sp := rfl
@[simp] theorem State.setV_op (x : Reg) (b : Byte) : (s.setV x b).op = s.op := rfl
@[simp] theorem State.setV_dt (x : Reg) (b : Byte) : (s.setV x b).dt = s.dt := rfl
@[simp] theorem State.setV_st (x : Reg) (b : Byte) : (s.setV x b).st = s.st := rfl
@[simp] theorem State.setV_ram (x : Reg) (b : Byte) : (s.setV x b).ram = s.ram := rfl
@[simp] theorem State.setV_res (x : Reg) (b : Byte) : (s.setV x b).res = s.res := rfl
@[simp] theorem State.setV_gfx (x : Reg) (b : Byte) : (s.setV x b).gfx = s.gfx := rfl
@[simp] theorem State.setV_cpu (x : Reg) (b : Byte) : (s.setV x b).cpu = s.cpu := rfl
@[simp] theorem State.setV_flags (x : Reg) (b : Byte) : (s.setV x b).flags = s.flags := rfl
@[simp] theorem State.setV_keys (x : Reg) (b : Byte) : (s.setV x b).keys = s.keys := rfl
@[simp] theorem State.setV_policy (x : Reg) (b : Byte) : (s.setV x b).policy = s.policy := rfl
@[simp] theorem State.setV_stop (x : Reg) (b : Byte) : (s.setV x b).stop = s.stop := rfl
@[simp] theorem State.setV_draws (x : Reg) (b : Byte) : (s.setV x b).draws = s.draws := rfl

/-! ## setI -/

@[simp] theorem State.setI_cfg (a : Index) : (s.setI a).cfg = s.cfg := rfl
@[simp] theorem State.setI_v (a : Index) : (s.setI a).v = s.v := rfl
@[simp] theorem State.setI_i (a : Index) : (s.setI a).i = a := rfl
@[simp] theorem State.setI_pc (a : Index) : (s.setI a).pc = s.pc := rfl
@[simp] theorem State.setI_stack (a : Index) : (s.setI a).stack = s.stack := rfl
@[simp] theorem State.setI_sp (a : Index) : (s.setI a).sp = s.sp := rfl
@[simp] theorem State.setI_op (a : Index) : (s.setI a).op = s.op := rfl
@[simp] theorem State.setI_dt (a : Index) : (s.setI a).dt = s.dt := rfl
@[simp] theorem State.setI_st (a : Index) : (s.setI a).st = s.st := rfl
@[simp] theorem State.setI_ram (a : Index) : (s.setI a).ram = s.ram := rfl
@[simp] theorem State.setI_res (a : Index) : (s.setI a).res = s.res := rfl
@[simp] theorem State.setI_gfx (a : Index) : (s.setI a).gfx = s.gfx := rfl
@[simp] theorem State.setI_cpu (a : Index) : (s.setI a).cpu = s.cpu := rfl
@[simp] theorem State.setI_flags (a : Index) : (s.setI a).flags = s.flags := rfl
@[simp] theorem State.setI_keys (a : Index) : (s.setI a).keys = s.keys := rfl
@[simp] theorem State.setI_policy (a : Index) : (s.setI a).policy = s.policy := rfl
@[simp] theorem State.setI_stop (a : Index) : (s.setI a).stop = s.stop := rfl
@[simp] theorem State.setI_draws (a : Index) : (s.setI a).draws = s.draws := rfl

/-! ## setPC -/

@[simp] theorem State.setPC_cfg (a : Word) : (s.setPC a).cfg = s.cfg := rfl
@[simp] theorem State.setPC_v (a : Word) : (s.setPC a).v = s.v := rfl
@[simp] theorem State.setPC_i (a : Word) : (s.setPC a).i = s.i := rfl
@[simp] theorem State.setPC_pc (a : Word) : (s.setPC a).pc = a := rfl
@[simp] theorem State.setPC_stack (a : Word) : (s.setPC a).stack = s.stack := rfl
@[simp] theorem State.setPC_sp (a : Word) : (s.setPC a).sp = s.sp := rfl
@[simp] theorem State.setPC_op (a : Word) : (s.setPC a).op = s.op := rfl
@[simp] theorem State.setPC_dt (a : Word) : (s.setPC a).dt = s.dt := rfl
@[simp] theorem State.setPC_st (a : Word) : (s.setPC a).st = s.st := rfl
@[simp] theorem State.setPC_ram (a : Word) : (s.setPC a).ram = s.ram := rfl
@[simp] theorem State.setPC_res (a : Word) : (s.setPC a).res = s.res := rfl
@[simp] theorem State.setPC_gfx (a : Word) : (s.setPC a).gfx = s.gfx := rfl
@[simp] theorem State.setPC_cpu (a : Word) : (s.setPC a).cpu = s.cpu := rfl
@[simp] theorem State.setPC_flags (a : Word) : (s.setPC a).flags = s.flags := rfl
@[simp] theorem State.setPC_keys (a : Word) : (s.setPC a).keys = s.keys := rfl
@[simp] theorem State.setPC_policy (a : Word) : (s.setPC a).policy = s.policy := rfl
@[simp] theorem State.setPC_stop (a : Word) : (s.setPC a).stop = s.stop := rfl
@[simp] theorem State.setPC_draws (a : Word) : (s.setPC a).draws = s.draws := rfl

/-! ## setDT -/

@[simp] theorem State.setDT_cfg (b : Byte) : (s.setDT b).cfg = s.cfg := rfl
@[simp] theorem State.setDT_v (b : Byte) : (s.setDT b).v = s.v := rfl
@[simp] theorem State.setDT_i (b : Byte) : (s.setDT b).i = s.i := rfl
@[simp] theorem State.setDT_pc (b : Byte) : (s.setDT b).pc = s.pc := rfl
@[simp] theorem State.setDT_stack (b : Byte) : (s.setDT b).stack = s.stack := rfl
@[simp] theorem State.setDT_sp (b : Byte) : (s.setDT b).sp = s.sp := rfl
@[simp] theorem State.setDT_op (b : Byte) : (s.setDT b).op = s.op := rfl
@[simp] theorem State.setDT_dt (b : Byte) : (s.setDT b).dt = b := rfl
@[simp] theorem State.setDT_st (b : Byte) : (s.setDT b).st = s.st := rfl
@[simp] theorem State.setDT_ram (b : Byte) : (s.setDT b).ram = s.ram := rfl
@[simp] theorem State.setDT_res (b : Byte) : (s.setDT b).res = s.res := rfl
@[simp] theorem State.setDT_gfx (b : Byte) : (s.setDT b).gfx = s.gfx := rfl
@[simp] theorem State.setDT_cpu (b : Byte) : (s.setDT b).cpu = s.cpu := rfl
@[simp] theorem State.setDT_flags (b : Byte) : (s.setDT b).flags = s.flags := rfl
@[simp] theorem State.setDT_keys (b : Byte) : (s.setDT b).keys = s.keys := rfl
@[simp] theorem State.setDT_policy (b : Byte) : (s.setDT b).policy = s.policy := rfl
@[simp] theorem State.setDT_stop (b : Byte) : (s.setDT b).stop = s.stop := rfl
@[simp] theorem State.setDT_draws (b : Byte) : (s.setDT b).draws = s.draws := rfl

/-! ## setST -/

@[simp] theorem State.setST_cfg (b : Byte) : (s.setST b).cfg = s.cfg := rfl
@[simp] theorem State.setST_v (b : Byte) : (s.setST b).v = s.v := rfl
@[simp] theorem State.setST_i (b : Byte) : (s.setST b).i = s.i := rfl
@[simp] theorem State.setST_pc (b : Byte) : (s.setST b).pc = s.pc := rfl
@[simp] theorem State.setST_stack (b : Byte) : (s.setST b).stack = s.stack := rfl
@[simp] theorem State.setST_sp (b : Byte) : (s.setST b).sp = s.sp := rfl
@[simp] theorem State.setST_op (b : Byte) : (s.setST b).op = s.op := rfl
@[simp] theorem State.setST_dt (b : Byte) : (s.setST b).dt = s.dt := rfl
@[simp] theorem State.setST_st (b : Byte) : (s.setST b).st = b := rfl
@[simp] theorem State.setST_ram (b : Byte) : (s.setST b).ram = s.ram := rfl
@[simp] theorem State.setST_res (b : Byte) : (s.setST b).res = s.res := rfl
@[simp] theorem State.setST_gfx (b : Byte) : (s.setST b).gfx = s.gfx := rfl
@[simp] theorem State.setST_cpu (b : Byte) : (s.setST b).cpu = s.cpu := rfl
@[simp] theorem State.setST_flags (b : Byte) : (s.setST b).flags = s.flags := rfl
@[simp] theorem State.setST_keys (b : Byte) : (s.setST b).keys = s.keys := rfl
@[simp] theorem State.setST_policy (b : Byte) : (s.setST b).policy = s.policy := rfl
@[simp] theorem State.setST_stop (b : Byte) : (s.setST b).stop = s.stop := rfl
@[simp] theorem State.setST_draws (b : Byte) : (s.setST b).draws = s.draws := rfl

/-! ## setGfx -/

@[simp] theorem State.setGfx_cfg (g : Pixels) : (s.setGfx g).cfg = s.cfg := rfl
@[simp] theorem State.setGfx_v (g : Pixels) : (s.setGfx g).v = s.v := rfl
@[simp] theorem State.setGfx_i (g : Pixels) : (s.setGfx g).i = s.i := rfl
@[simp] theorem State.setGfx_pc (g : Pixels) : (s.setGfx g).pc = s.pc := rfl
@[simp] theorem State.setGfx_stack (g : Pixels) : (s.setGfx g).stack = s.stack := rfl
@[simp] theorem State.setGfx_sp (g : Pixels) : (s.setGfx g).sp = s.sp := rfl
@[simp] theorem State.setGfx_op (g : Pixels) : (s.setGfx g).op = s.op := rfl
@[simp] theorem State.setGfx_dt (g : Pixels) : (s.setGfx g).dt = s.dt := rfl
@[simp] theorem State.setGfx_st (g : Pixels) : (s.setGfx g).st = s.st := rfl
@[simp] theorem State.setGfx_ram (g : Pixels) : (s.setGfx g).ram = s.ram := rfl
@[simp] theorem State.setGfx_res (g : Pixels) : (s.setGfx g).res = s.res := rfl
@[simp] theorem State.setGfx_gfx (g : Pixels) : (s.setGfx g).gfx = g := rfl
@[simp] theorem State.setGfx_cpu (g : Pixels) : (s.setGfx g).cpu = s.cpu := rfl
@[simp] theorem State.setGfx_flags (g : Pixels) : (s.setGfx g).flags = s.flags := rfl
@[simp] theorem State.setGfx_keys (g : Pixels) : (s.setGfx g).keys = s.keys := rfl
@[simp] theorem State.setGfx_policy (g : Pixels) : (s.setGfx g).policy = s.policy := rfl
@[simp] theorem State.setGfx_stop (g : Pixels) : (s.setGfx g).stop = s.stop := rfl
@[simp] theorem State.setGfx_draws (g : Pixels) : (s.setGfx g).draws = s.draws := rfl

/-! ## setDisplay -/

@[simp] theorem State.setDisplay_cfg (r : Res) (g : Pixels) : (s.setDisplay r g).cfg = s.cfg := rfl
@[simp] theorem State.setDisplay_v (r : Res) (g : Pixels) : (s.setDisplay r g).v = s.v := rfl
@[simp] theorem State.setDisplay_i (r : Res) (g : Pixels) : (s.setDisplay r g).i = s.i := rfl
@[simp] theorem State.setDisplay_pc (r : Res) (g : Pixels) : (s.setDisplay r g).pc = s.pc := rfl
@[simp] theorem State.setDisplay_stack (r : Res) (g : Pixels) : (s.setDisplay r g).stack = s.stack := rfl
@[simp] theorem State.setDisplay_sp (r : Res) (g : Pixels) : (s.setDisplay r g).sp = s.sp := rfl
@[simp] theorem State.setDisplay_op (r : Res) (g : Pixels) : (s.setDisplay r g).op = s.op := rfl
@[simp] theorem State.setDisplay_dt (r : Res) (g : Pixels) : (s.setDisplay r g).dt = s.dt := rfl
@[simp] theorem State.setDisplay_st (r : Res) (g : Pixels) : (s.setDisplay r g).st = s.st := rfl
@[simp] theorem State.setDisplay_ram (r : Res) (g : Pixels) : (s.setDisplay r g).ram = s.ram := rfl
@[simp] theorem State.setDisplay_res (r : Res) (g : Pixels) : (s.setDisplay r g).res = r := rfl
@[simp] theorem State.setDisplay_gfx (r : Res) (g : Pixels) : (s.setDisplay r g).gfx = g := rfl
@[simp] theorem State.setDisplay_cpu (r : Res) (g : Pixels) : (s.setDisplay r g).cpu = s.cpu := rfl
@[simp] theorem State.setDisplay_flags (r : Res) (g : Pixels) : (s.setDisplay r g).flags = s.flags := rfl
@[simp] theorem State.setDisplay_keys (r : Res) (g : Pixels) : (s.setDisplay r g).keys = s.keys := rfl
@[simp] theorem State.setDisplay_policy (r : Res) (g : Pixels) : (s.setDisplay r g).policy = s.policy := rfl
@[simp] theorem State.setDisplay_stop (r : Res) (g : Pixels) : (s.setDisplay r g).stop = s.stop := rfl
@[simp] theorem State.setDisplay_draws (r : Res) (g : Pixels) : (s.setDisplay r g).draws = s.draws := rfl

/-! ## push -/

@[simp] theorem State.push_cfg (a : Word) : (s.push a).cfg = s.cfg := rfl
@[simp] theorem State.push_v (a : Word) : (s.push a).v = s.v := rfl
@[simp] theorem State.push_i (a : Word) : (s.push a).i = s.i := rfl
@[simp] theorem State.push_pc (a : Word) : (s.push a).pc = s.pc := rfl
@[simp] theorem State.push_stack (a : Word) : (s.push a).stack = s.stack.setIfInBounds s.sp.val a := rfl
@[simp] theorem State.push_sp (a : Word) : (s.push a).sp = Fin.ofNat 17 (s.sp.val + 1) := rfl
@[simp] theorem State.push_op (a : Word) : (s.push a).op = s.op := rfl
@[simp] theorem State.push_dt (a : Word) : (s.push a).dt = s.dt := rfl
@[simp] theorem State.push_st (a : Word) : (s.push a).st = s.st := rfl
@[simp] theorem State.push_ram (a : Word) : (s.push a).ram = s.ram := rfl
@[simp] theorem State.push_res (a : Word) : (s.push a).res = s.res := rfl
@[simp] theorem State.push_gfx (a : Word) : (s.push a).gfx = s.gfx := rfl
@[simp] theorem State.push_cpu (a : Word) : (s.push a).cpu = s.cpu := rfl
@[simp] theorem State.push_flags (a : Word) : (s.push a).flags = s.flags := rfl
@[simp] theorem State.push_keys (a : Word) : (s.push a).keys = s.keys := rfl
@[simp] theorem State.push_policy (a : Word) : (s.push a).policy = s.policy := rfl
@[simp] theorem State.push_stop (a : Word) : (s.push a).stop = s.stop := rfl
@[simp] theorem State.push_draws (a : Word) : (s.push a).draws = s.draws := rfl

/-! ## pop -/

@[simp] theorem State.pop_cfg : (s.pop).cfg = s.cfg := rfl
@[simp] theorem State.pop_v : (s.pop).v = s.v := rfl
@[simp] theorem State.pop_i : (s.pop).i = s.i := rfl
@[simp] theorem State.pop_pc : (s.pop).pc = s.pc := rfl
@[simp] theorem State.pop_stack : (s.pop).stack = s.stack := rfl
@[simp] theorem State.pop_sp : (s.pop).sp = Fin.ofNat 17 (s.sp.val - 1) := rfl
@[simp] theorem State.pop_op : (s.pop).op = s.op := rfl
@[simp] theorem State.pop_dt : (s.pop).dt = s.dt := rfl
@[simp] theorem State.pop_st : (s.pop).st = s.st := rfl
@[simp] theorem State.pop_ram : (s.pop).ram = s.ram := rfl
@[simp] theorem State.pop_res : (s.pop).res = s.res := rfl
@[simp] theorem State.pop_gfx : (s.pop).gfx = s.gfx := rfl
@[simp] theorem State.pop_cpu : (s.pop).cpu = s.cpu := rfl
@[simp] theorem State.pop_flags : (s.pop).flags = s.flags := rfl
@[simp] theorem State.pop_keys : (s.pop).keys = s.keys := rfl
@[simp] theorem State.pop_policy : (s.pop).policy = s.policy := rfl
@[simp] theorem State.pop_stop : (s.pop).stop = s.stop := rfl
@[simp] theorem State.pop_draws : (s.pop).draws = s.draws := rfl

/-! ## setKey -/

@[simp] theorem State.setKey_cfg (k : Nat) (b : Bool) : (s.setKey k b).cfg = s.cfg := rfl
@[simp] theorem State.setKey_v (k : Nat) (b : Bool) : (s.setKey k b).v = s.v := rfl
@[simp] theorem State.setKey_i (k : Nat) (b : Bool) : (s.setKey k b).i = s.i := rfl
@[simp] theorem State.setKey_pc (k : Nat) (b : Bool) : (s.setKey k b).pc = s.pc := rfl
@[simp] theorem State.setKey_stack (k : Nat) (b : Bool) : (s.setKey k b).stack = s.stack := rfl
@[simp] theorem State.setKey_sp (k : Nat) (b : Bool) : (s.setKey k b).sp = s.sp := rfl
@[simp] theorem State.setKey_op (k : Nat) (b : Bool) : (s.setKey k b).op = s.op := rfl
@[simp] theorem State.setKey_dt (k : Nat) (b : Bool) : (s.setKey k b).dt = s.dt := rfl
@[simp] theorem State.setKey_st (k : Nat) (b : Bool) : (s.setKey k b).st = s.st := rfl
@[simp] theorem State.setKey_ram (k : Nat) (b : Bool) : (s.setKey k b).ram = s.ram := rfl
@[simp] theorem State.setKey_res (k : Nat) (b : Bool) : (s.setKey k b).res = s.res := rfl
@[simp] theorem State.setKey_gfx (k : Nat) (b : Bool) : (s.setKey k b).gfx = s.gfx := rfl
@[simp] theorem State.setKey_cpu (k : Nat) (b : Bool) : (s.setKey k b).cpu = s.cpu := rfl
@[simp] theorem State.setKey_flags (k : Nat) (b : Bool) : (s.setKey k b).flags = s.flags := rfl
@[simp] theorem State.setKey_keys (k : Nat) (b : Bool) : (s.setKey k b).keys = s.keys.setIfInBounds k b := rfl
@[simp] theorem State.setKey_policy (k : Nat) (b : Bool) : (s.setKey k b).policy = s.policy := rfl
@[simp] theorem State.setKey_stop (k : Nat) (b : Bool) : (s.setKey k b).stop = s.stop := rfl
@[simp] theorem State.setKey_draws (k : Nat) (b : Bool) : (s.setKey k b).draws = s.draws := rfl

/-! ## drawn -/

@[simp] theorem State.drawn_cfg : (s.drawn).cfg = s.cfg := rfl
@[simp] theorem State.drawn_v : (s.drawn).v = s.v := rfl
@[simp] theorem State.drawn_i : (s.drawn).i = s.i := rfl
@[simp] theorem State.drawn_pc : (s.drawn).pc = s.pc := rfl
@[simp] theorem State.drawn_stack : (s.drawn).stack = s.stack := rfl
@[simp] theorem State.drawn_sp : (s.drawn).sp = s.sp := rfl
@[simp] theorem State.drawn_op : (s.drawn).op = s.op := rfl
@[simp] theorem State.drawn_dt : (s.drawn).dt = s.dt := rfl
@[simp] theorem State.drawn_st : (s.drawn).st = s.st := rfl
@[simp] theorem State.drawn_ram : (s.drawn).ram = s.ram := rfl
@[simp] theorem State.drawn_res : (s.drawn).res = s.res := rfl
@[simp] theorem State.drawn_gfx : (s.drawn).gfx = s.gfx := rfl
@[simp] theorem State.drawn_cpu : (s.drawn).cpu = s.cpu := rfl
@[simp] theorem State.drawn_flags : (s.drawn).flags = s.flags := rfl
@[simp] theorem State.drawn_keys : (s.drawn).keys = s.keys := rfl
@[simp] theorem State.drawn_policy : (s.drawn).policy = s.policy := rfl
@[simp] theorem State.drawn_stop : (s.drawn).stop = s.stop := rfl
@[simp] theorem State.drawn_draws : (s.drawn).draws = s.draws + 1 := rfl

/-! ## halt -/

@[simp] theorem State.halt_cfg (k : StopKind) : (s.halt k).cfg = s.cfg := rfl
@[simp] theorem State.halt_v (k : StopKind) : (s.halt k).v = s.v := rfl
@[simp] theorem State.halt_i (k : StopKind) : (s.halt k).i = s.i := rfl
@[simp] theorem State.halt_pc (k : StopKind) : (s.halt k).pc = s.pc := rfl
@[simp] theorem State.halt_stack (k : StopKind) : (s.halt k).stack = s.stack := rfl
@[simp] theorem State.halt_sp (k : StopKind) : (s.halt k).sp = s.sp := rfl
@[simp] theorem State.halt_op (k : StopKind) : (s.halt k).op = s.op := rfl
@[simp] theorem State.halt_dt (k : StopKind) : (s.halt k).dt = s.dt := rfl
@[simp] theorem State.halt_st (k : StopKind) : (s.halt k).st = s.st := rfl
@[simp] theorem State.halt_ram (k : StopKind) : (s.halt k).ram = s.ram := rfl
@[simp] theorem State.halt_res (k : StopKind) : (s.halt k).res = s.res := rfl
@[simp] theorem State.halt_gfx (k : StopKind) : (s.halt k).gfx = s.gfx := rfl
@[simp] theorem State.halt_cpu (k : StopKind) : (s.halt k).cpu = .stopped := rfl
@[simp] theorem State.halt_flags (k : StopKind) : (s.halt k).flags = s.flags := rfl
@[simp] theorem State.halt_keys (k : StopKind) : (s.halt k).keys = s.keys := rfl
@[simp] theorem State.halt_policy (k : StopKind) : (s.halt k).policy = s.policy := rfl
@[simp] theorem State.halt_stop (k : StopKind) : (s.halt k).stop = some k := rfl
@[simp] theorem State.halt_draws (k : StopKind) : (s.halt k).draws = s.draws := rfl

/-! ## latch -/

@[simp] theorem State.latch_cfg (w : Word) : (s.latch w).cfg = s.cfg := rfl
@[simp] theorem State.latch_v (w : Word) : (s.latch w).v = s.v := rfl
@[simp] theorem State.latch_i (w : Word) : (s.latch w).i = s.i := rfl
@[simp] theorem State.latch_pc (w : Word) : (s.latch w).pc = s.pc + 2 := rfl
@[simp] theorem State.latch_stack (w : Word) : (s.latch w).stack = s.stack := rfl
@[simp] theorem State.latch_sp (w : Word) : (s.latch w).sp = s.sp := rfl
@[simp] theorem State.latch_op (w : Word) : (s.latch w).op = w := rfl
@[simp] theorem State.latch_dt (w : Word) : (s.latch w).dt = s.dt := rfl
@[simp] theorem State.latch_st (w : Word) : (s.latch w).st = s.st := rfl
@[simp] theorem State.latch_ram (w : Word) : (s.latch w).ram = s.ram := rfl
@[simp] theorem State.latch_res (w : Word) : (s.latch w).res = s.res := rfl
@[simp] theorem State.latch_gfx (w : Word) : (s.latch w).gfx = s.gfx := rfl
@[simp] theorem State.latch_cpu (w : Word) : (s.latch w).cpu = s.cpu := rfl
@[simp] theorem State.latch_flags (w : Word) : (s.latch w).flags = s.flags := rfl
@[simp] theorem State.latch_keys (w : Word) : (s.latch w).keys = s.keys := rfl
@[simp] theorem State.latch_policy (w : Word) : (s.latch w).policy = s.policy := rfl
@[simp] theorem State.latch_stop (w : Word) : (s.latch w).stop = s.stop := rfl
@[simp] theorem State.latch_draws (w : Word) : (s.latch w).draws = s.draws := rfl

/-! ## writeMem -/

@[simp] theorem State.writeMem_cfg (a : Nat) (b : Byte) : (s.writeMem a b).cfg = s.cfg := rfl
@[simp] theorem State.writeMem_v (a : Nat) (b : Byte) : (s.writeMem a b).v = s.v := rfl
@[simp] theorem State.writeMem_i (a : Nat) (b : Byte) : (s.writeMem a b).i = s.i := rfl
@[simp] theorem State.writeMem_pc (a : Nat) (b : Byte) : (s.writeMem a b).pc = s.pc := rfl
@[simp] theorem State.writeMem_stack (a : Nat) (b : Byte) : (s.writeMem a b).stack = s.stack := rfl
@[simp] theorem State.writeMem_sp (a : Nat) (b : Byte) : (s.writeMem a b).sp = s.sp := rfl
@[simp] theorem State.writeMem_op (a : Nat) (b : Byte) : (s.writeMem a b).op = s.op := rfl
@[simp] theorem State.writeMem_dt (a : Nat) (b : Byte) : (s.writeMem a b).dt = s.dt := rfl
@[simp] theorem State.writeMem_st (a : Nat) (b : Byte) : (s.writeMem a b).st = s.st := rfl
@[simp] theorem State.writeMem_ram (a : Nat) (b : Byte) : (s.writeMem a b).ram = Memory.write (ramReset s.cfg) s.ram a b := rfl
@[simp] theorem State.writeMem_res (a : Nat) (b : Byte) : (s.writeMem a b).res = s.res := rfl
@[simp] theorem State.writeMem_gfx (a : Nat) (b : Byte) : (s.writeMem a b).gfx = s.gfx := rfl
@[simp] theorem State.writeMem_cpu (a : Nat) (b : Byte) : (s.writeMem a b).cpu = s.cpu := rfl
@[simp] theorem State.writeMem_flags (a : Nat) (b : Byte) : (s.writeMem a b).flags = s.flags := rfl
@[simp] theorem State.writeMem_keys (a : Nat) (b : Byte) : (s.writeMem a b).keys = s.keys := rfl
@[simp] theorem State.writeMem_policy (a : Nat) (b : Byte) : (s.writeMem a b).policy = s.policy := rfl
@[simp] theorem State.writeMem_stop (a : Nat) (b : Byte) : (s.writeMem a b).stop = s.stop := rfl
@[simp] theorem State.writeMem_draws (a : Nat) (b : Byte) : (s.writeMem a b).draws = s.draws := rfl

/-! ## skipIf, consumeKey, advanceI, writeBytes: the fields they leave -/

@[simp] theorem State.skipIf_cfg (c : Bool) : (s.skipIf c).cfg = s.cfg := by cases c <;> rfl
@[simp] theorem State.skipIf_v (c : Bool) : (s.skipIf c).v = s.v := by cases c <;> rfl
@[simp] theorem State.skipIf_i (c : Bool) : (s.skipIf c).i = s.i := by cases c <;> rfl
@[simp] theorem State.skipIf_stack (c : Bool) : (s.skipIf c).stack = s.stack := by cases c <;> rfl
@[simp] theorem State.skipIf_sp (c : Bool) : (s.skipIf c).sp = s.sp := by cases c <;> rfl
@[simp] theorem State.skipIf_op (c : Bool) : (s.skipIf c).op = s.op := by cases c <;> rfl
@[simp] theorem State.skipIf_dt (c : Bool) : (s.skipIf c).dt = s.dt := by cases c <;> rfl
@[simp] theorem State.skipIf_st (c : Bool) : (s.skipIf c).st = s.st := by cases c <;> rfl
@[simp] theorem State.skipIf_ram (c : Bool) : (s.skipIf c).ram = s.ram := by cases c <;> rfl
@[simp] theorem State.skipIf_res (c : Bool) : (s.skipIf c).res = s.res := by cases c <;> rfl
@[simp] theorem State.skipIf_gfx (c : Bool) : (s.skipIf c).gfx = s.gfx := by cases c <;> rfl
@[simp] theorem State.skipIf_cpu (c : Bool) : (s.skipIf c).cpu = s.cpu := by cases c <;> rfl
@[simp] theorem State.skipIf_flags (c : Bool) : (s.skipIf c).flags = s.flags := by cases c <;> rfl
@[simp] theorem State.skipIf_keys (c : Bool) : (s.skipIf c).keys = s.keys := by cases c <;> rfl
@[simp] theorem State.skipIf_policy (c : Bool) : (s.skipIf c).policy = s.policy := by cases c <;> rfl
@[simp] theorem State.skipIf_stop (c : Bool) : (s.skipIf c).stop = s.stop := by cases c <;> rfl
@[simp] theorem State.skipIf_draws (c : Bool) : (s.skipIf c).draws = s.draws := by cases c <;> rfl
@[simp] theorem State.skipIf_pc (c : Bool) : (s.skipIf c).pc = if c then s.pc + 2 else s.pc := by cases c <;> rfl

@[simp] theorem State.consumeKey_cfg (k : Nat) : (s.consumeKey k).cfg = s.cfg := by
  unfold State.consumeKey; split <;> rfl
@[simp] theorem State.consumeKey_v (k : Nat) : (s.consumeKey k).v = s.v := by
  unfold State.consumeKey; split <;> rfl
@[simp] theorem State.consumeKey_i (k : Nat) : (s.consumeKey k).i = s.i := by
  unfold State.consumeKey; split <;> rfl
@[simp] theorem State.consumeKey_pc (k : Nat) : (s.consumeKey k).pc = s.pc := by
  unfold State.consumeKey; split <;> rfl
@[simp] theorem State.consumeKey_stack (k : Nat) : (s.consumeKey k).stack = s.stack := by
  unfold State.consumeKey; split <;> rfl
@[simp] theorem State.consumeKey_sp (k : Nat) : (s.consumeKey k).sp = s.sp := by
  unfold State.consumeKey; split <;> rfl
@[simp] theorem State.consumeKey_op (k : Nat) : (s.consumeKey k).op = s.op := by
  unfold State.consumeKey; split <;> rfl
@[simp] theorem State.consumeKey_dt (k : Nat) : (s.consumeKey k).dt = s.dt := by
  unfold State.consumeKey; split <;> rfl
@[simp] theorem State.consumeKey_st (k : Nat) : (s.consumeKey k).st = s.st := by
  unfold State.consumeKey; split <;> rfl
@[simp] theorem State.consumeKey_ram (k : Nat) : (s.consumeKey k).ram = s.ram := by
  unfold State.consumeKey; split <;> rfl
@[simp] theorem State.consumeKey_res (k : Nat) : (s.consumeKey k).res = s.res := by
  unfold State.consumeKey; split <;> rfl
@[simp] theorem State.consumeKey_gfx (k : Nat) : (s.consumeKey k).gfx = s.gfx := by
  unfold State.consumeKey; split <;> rfl
@[simp] theorem State.consumeKey_cpu (k : Nat) : (s.consumeKey k).cpu = s.cpu := by
  unfold State.consumeKey; split <;> rfl
@[simp] theorem State.consumeKey_flags (k : Nat) : (s.consumeKey k).flags = s.flags := by
  unfold State.consumeKey; split <;> rfl
@[simp] theorem State.consumeKey_policy (k : Nat) : (s.consumeKey k).policy = s.policy := by
  unfold State.consumeKey; split <;> rfl
@[simp] theorem State.consumeKey_stop (k : Nat) : (s.consumeKey k).stop = s.stop := by
  unfold State.consumeKey; split <;> rfl
@[simp] theorem State.consumeKey_draws (k : Nat) : (s.consumeKey k).draws = s.draws := by
  unfold State.consumeKey; split <;> rfl
@[simp] theorem State.consumeKey_keys (k : Nat) :
    (s.consumeKey k).keys = if s.policy = .smooth then s.keys.setIfInBounds k false else s.keys := by
  unfold State.consumeKey; split <;> simp_all

@[simp] theorem State.advanceI_cfg (x : Reg) : (s.advanceI x).cfg = s.cfg := by
  unfold State.advanceI; split <;> rfl
@[simp] theorem State.advanceI_v (x : Reg) : (s.advanceI x).v = s.v := by
  unfold State.advanceI; split <;> rfl
@[simp] theorem State.advanceI_pc (x : Reg) : (s.advanceI x).pc = s.pc := by
  unfold State.advanceI; split <;> rfl
@[simp] theorem State.advanceI_stack (x : Reg) : (s.advanceI x).stack = s.stack := by
  unfold State.advanceI; split <;> rfl
@[simp] theorem State.advanceI_sp (x : Reg) : (s.advanceI x).sp = s.sp := by
  unfold State.advanceI; split <;> rfl
@[simp] theorem State.advanceI_op (x : Reg) : (s.advanceI x).op = s.op := by
  unfold State.advanceI; split <;> rfl
@[simp] theorem State.advanceI_dt (x : Reg) : (s.advanceI x).dt = s.dt := by
  unfold State.advanceI; split <;> rfl
@[simp] theorem State.advanceI_st (x : Reg) : (s.advanceI x).st = s.st := by
  unfold State.advanceI; split <;> rfl
@[simp] theorem State.advanceI_ram (x : Reg) : (s.advanceI x).ram = s.ram := by
  unfold State.advanceI; split <;> rfl
@[simp] theorem State.advanceI_res (x : Reg) : (s.advanceI x).res = s.res := by
  unfold State.advanceI; split <;> rfl
@[simp] theorem State.advanceI_gfx (x : Reg) : (s.advanceI x).gfx = s.gfx := by
  unfold State.advanceI; split <;> rfl
@[simp] theorem State.advanceI_cpu (x : Reg) : (s.advanceI x).cpu = s.cpu := by
  unfold State.advanceI; split <;> rfl
@[simp] theorem State.advanceI_flags (x : Reg) : (s.advanceI x).flags = s.flags := by
  unfold State.advanceI; split <;> rfl
@[simp] theorem State.advanceI_keys (x : Reg) : (s.advanceI x).keys = s.keys := by
  unfold State.advanceI; split <;> rfl
@[simp] theorem State.advanceI_policy (x : Reg) : (s.advanceI x).policy = s.policy := by
  unfold State.advanceI; split <;> rfl
@[simp] theorem State.advanceI_stop (x : Reg) : (s.advanceI x).stop = s.stop := by
  unfold State.advanceI; split <;> rfl
@[simp] theorem State.advanceI_draws (x : Reg) : (s.advanceI x).draws = s.draws := by
  unfold State.advanceI; split <;> rfl
@[simp] theorem State.advanceI_i (x : Reg) :
    (s.advanceI x).i = if s.cfg.lsIInc = .xPlusOne then BitVec.ofNat 12 (s.i.toNat + x.val + 1) else s.i := by
  unfold State.advanceI; split <;> simp_all

/-- Writing bytes changes `RAM` alone. -/
theorem State.writeBytes_eq (a : Nat) (bs : List Byte) :
    s.writeBytes a bs = { s with ram := (s.writeBytes a bs).ram } := by
  induction bs generalizing s a with
  | nil => rfl
  | cons b rest ih => rw [State.writeBytes, ih]; rfl

@[simp] theorem State.writeBytes_cfg (a : Nat) (bs : List Byte) : (s.writeBytes a bs).cfg = s.cfg := by
  rw [State.writeBytes_eq]
@[simp] theorem State.writeBytes_v (a : Nat) (bs : List Byte) : (s.writeBytes a bs).v = s.v := by
  rw [State.writeBytes_eq]
@[simp] theorem State.writeBytes_i (a : Nat) (bs : List Byte) : (s.writeBytes a bs).i = s.i := by
  rw [State.writeBytes_eq]
@[simp] theorem State.writeBytes_pc (a : Nat) (bs : List Byte) : (s.writeBytes a bs).pc = s.pc := by
  rw [State.writeBytes_eq]
@[simp] theorem State.writeBytes_stack (a : Nat) (bs : List Byte) : (s.writeBytes a bs).stack = s.stack := by
  rw [State.writeBytes_eq]
@[simp] theorem State.writeBytes_sp (a : Nat) (bs : List Byte) : (s.writeBytes a bs).sp = s.sp := by
  rw [State.writeBytes_eq]
@[simp] theorem State.writeBytes_op (a : Nat) (bs : List Byte) : (s.writeBytes a bs).op = s.op := by
  rw [State.writeBytes_eq]
@[simp] theorem State.writeBytes_dt (a : Nat) (bs : List Byte) : (s.writeBytes a bs).dt = s.dt := by
  rw [State.writeBytes_eq]
@[simp] theorem State.writeBytes_st (a : Nat) (bs : List Byte) : (s.writeBytes a bs).st = s.st := by
  rw [State.writeBytes_eq]
@[simp] theorem State.writeBytes_res (a : Nat) (bs : List Byte) : (s.writeBytes a bs).res = s.res := by
  rw [State.writeBytes_eq]
@[simp] theorem State.writeBytes_gfx (a : Nat) (bs : List Byte) : (s.writeBytes a bs).gfx = s.gfx := by
  rw [State.writeBytes_eq]
@[simp] theorem State.writeBytes_cpu (a : Nat) (bs : List Byte) : (s.writeBytes a bs).cpu = s.cpu := by
  rw [State.writeBytes_eq]
@[simp] theorem State.writeBytes_flags (a : Nat) (bs : List Byte) : (s.writeBytes a bs).flags = s.flags := by
  rw [State.writeBytes_eq]
@[simp] theorem State.writeBytes_keys (a : Nat) (bs : List Byte) : (s.writeBytes a bs).keys = s.keys := by
  rw [State.writeBytes_eq]
@[simp] theorem State.writeBytes_policy (a : Nat) (bs : List Byte) : (s.writeBytes a bs).policy = s.policy := by
  rw [State.writeBytes_eq]
@[simp] theorem State.writeBytes_stop (a : Nat) (bs : List Byte) : (s.writeBytes a bs).stop = s.stop := by
  rw [State.writeBytes_eq]
@[simp] theorem State.writeBytes_draws (a : Nat) (bs : List Byte) : (s.writeBytes a bs).draws = s.draws := by
  rw [State.writeBytes_eq]

/-! ## Registers -/

theorem State.getV_setV (x y : Reg) (b : Byte) : (s.setV x b).getV y = if y = x then b else s.getV y := by
  simp [State.getV, Vector.getElem_set, Fin.ext_iff, eq_comm]

@[simp] theorem State.getV_setV_same (x : Reg) (b : Byte) : (s.setV x b).getV x = b := by simp [State.getV_setV]

/-- Two states with the same registers read the same. -/
theorem State.getV_congr {s t : State} (h : t.v = s.v) (x : Reg) : t.getV x = s.getV x := by simp [State.getV, h]

/-- Two states with the same build and the same `RAM` read the same memory. -/
theorem State.readMem_congr {s t : State} (hc : t.cfg = s.cfg) (h : t.ram = s.ram) (a : Nat) :
    t.readMem a = s.readMem a := by simp [State.readMem, hc, h]

/-- The result and the flag of an instruction that defines one: the flag is written last (42_alu.md R130). -/
theorem State.getV_setVThenVF (x y : Reg) (b f : Byte) :
    (s.setVThenVF x b f).getV y = if y = 15 then f else if y = x then b else s.getV y := by
  simp [State.setVThenVF, State.setVF, State.getV_setV]

end Sys2Proof.Machine
end

