-- ==== Sys2Proof/Laws/Memory.lean ====
section
/-! SUPPORT. The laws of `RAM`: read after write, writes leave every other address alone, and every memory operation keeps
the canonical form. -/

namespace Sys2Proof.Machine

variable (d : Nat → Byte) (m : Memory) (a a' : Nat) (b : Byte)

theorem Memory.read_erase_same : Memory.read d (Memory.erase m a) a = d a := by
  induction m with
  | nil => rfl
  | cons c rest ih =>
    by_cases h : c.1 = a
    · simpa [Memory.erase, h] using ih
    · have : Memory.erase (c :: rest) a = c :: Memory.erase rest a := by simp [Memory.erase, h]
      rw [this, Memory.read, if_neg (Ne.symm h), ih]

theorem Memory.read_erase_other (h : a' ≠ a) : Memory.read d (Memory.erase m a) a' = Memory.read d m a' := by
  induction m with
  | nil => rfl
  | cons c rest ih =>
    by_cases hc : c.1 = a
    · have : Memory.erase (c :: rest) a = Memory.erase rest a := by simp [Memory.erase, hc]
      rw [this, ih, Memory.read, if_neg (by omega)]
    · have : Memory.erase (c :: rest) a = c :: Memory.erase rest a := by simp [Memory.erase, hc]
      rw [this, Memory.read, Memory.read, ih]

theorem Memory.read_insert_other (h : a' ≠ a) : Memory.read d (Memory.insert m a b) a' = Memory.read d m a' := by
  induction m with
  | nil => simp [Memory.insert, Memory.read, h]
  | cons c rest ih =>
    rw [Memory.insert]
    split
    · simp [Memory.read, h]
    · simp [Memory.read, ih]

theorem Memory.read_insert_same (h : ∀ c ∈ m, c.1 ≠ a) : Memory.read d (Memory.insert m a b) a = b := by
  induction m with
  | nil => simp [Memory.insert, Memory.read]
  | cons c rest ih =>
    rw [Memory.insert]
    split
    · simp [Memory.read]
    · have hc : a ≠ c.1 := (h c (by simp)).symm
      rw [Memory.read, if_neg hc]
      exact ih fun c' h' => h c' (by simp [h'])

theorem Memory.erase_ne (c : Host.Cell) (h : c ∈ Memory.erase m a) : c ∈ m ∧ c.1 ≠ a := by
  simpa [Memory.erase] using h

/-- A read after a write to the same address gives the value written, in every memory. -/
theorem Memory.read_write_same : Memory.read d (Memory.write d m a b) a = b := by
  unfold Memory.write
  split
  · next h => rw [Memory.read_erase_same, h]
  · exact Memory.read_insert_same d _ a b fun c hc => (Memory.erase_ne m a c hc).2

/-- A write leaves every other address alone, in every memory. -/
theorem Memory.read_write_other (h : a' ≠ a) : Memory.read d (Memory.write d m a b) a' = Memory.read d m a' := by
  unfold Memory.write
  split
  · exact Memory.read_erase_other d m a a' h
  · rw [Memory.read_insert_other _ _ _ _ _ h, Memory.read_erase_other _ _ _ _ h]

theorem Memory.mem_insert (c : Host.Cell) : c ∈ Memory.insert m a b ↔ c = (a, b) ∨ c ∈ m := by
  induction m with
  | nil => simp [Memory.insert]
  | cons e rest ih =>
    rw [Memory.insert]
    split
    · simp
    · simp only [List.mem_cons, ih]; tauto

theorem Memory.wf_erase (h : Memory.wf d m) : Memory.wf d (Memory.erase m a) :=
  ⟨h.1.filter _, fun c hc => h.2 c (Memory.erase_ne m a c hc).1⟩

theorem Memory.pairwise_insert (hm : m.Pairwise fun p q => p.1 < q.1) (hn : ∀ c ∈ m, c.1 ≠ a) :
    (Memory.insert m a b).Pairwise fun p q => p.1 < q.1 := by
  induction m with
  | nil => simp [Memory.insert]
  | cons e rest ih =>
    rw [List.pairwise_cons] at hm
    rw [Memory.insert]
    split
    · next h =>
      refine List.pairwise_cons.2 ⟨?_, List.pairwise_cons.2 hm⟩
      intro c hc
      rcases List.mem_cons.1 hc with rfl | hc
      · exact h
      · exact lt_trans h (hm.1 c hc)
    · next h =>
      refine List.pairwise_cons.2 ⟨?_, ih hm.2 fun c hc => hn c (by simp [hc])⟩
      intro c hc
      rcases (Memory.mem_insert rest a b c).1 hc with rfl | hc
      · have := hn e (by simp)
        simp only at h ⊢
        omega
      · exact hm.1 c hc

/-- A write inside the 4096 bytes keeps the canonical form. -/
theorem Memory.wf_write (h : Memory.wf d m) (ha : a < 4096) : Memory.wf d (Memory.write d m a b) := by
  unfold Memory.write
  split
  · exact Memory.wf_erase d m a h
  · next hb =>
    refine ⟨Memory.pairwise_insert _ a b (Memory.wf_erase d m a h).1 fun c hc => (Memory.erase_ne m a c hc).2, ?_⟩
    intro c hc
    rcases (Memory.mem_insert _ a b c).1 hc with rfl | hc
    · exact ⟨ha, hb⟩
    · exact (Memory.wf_erase d m a h).2 c hc

/-- The memory of the constructed core lists nothing and is canonical. -/
theorem Memory.wf_nil : Memory.wf d [] := by simp [Memory.wf]

variable (s : State)

@[simp] theorem State.readMem_writeMem_same : (s.writeMem a b).readMem a = b :=
  Memory.read_write_same _ _ _ _

theorem State.readMem_writeMem_other (h : a' ≠ a) : (s.writeMem a b).readMem a' = s.readMem a' :=
  Memory.read_write_other _ _ _ _ _ h

/-- What memory reads after a block of bytes has been written. -/
theorem State.readMem_writeBytes (bs : List Byte) :
    (s.writeBytes a bs).readMem a' = if a ≤ a' then bs[a' - a]?.getD (s.readMem a') else s.readMem a' := by
  induction bs generalizing s a with
  | nil => simp [State.writeBytes]
  | cons c rest ih =>
    rw [State.writeBytes, ih]
    by_cases h : a' = a
    · subst h; simp
    · rw [State.readMem_writeMem_other _ _ _ _ h]
      by_cases h' : a ≤ a'
      · obtain ⟨k, hk⟩ : ∃ k, a' - a = k + 1 := ⟨a' - a - 1, by omega⟩
        have : a' - (a + 1) = k := by omega
        simp [h', hk, this, show a + 1 ≤ a' by omega]
      · simp [h', show ¬ a + 1 ≤ a' by omega]

/-- A block of bytes inside the 4096 keeps the canonical form. -/
theorem State.ramCanonical_writeBytes (bs : List Byte) (h : Memory.wf (ramReset s.cfg) s.ram)
    (ha : a + bs.length ≤ 4096) : Memory.wf (ramReset s.cfg) (s.writeBytes a bs).ram := by
  induction bs generalizing s a with
  | nil => exact h
  | cons c rest ih =>
    have hl : (c :: rest).length = rest.length + 1 := rfl
    exact ih (a + 1) (s.writeMem a c) (Memory.wf_write _ _ _ _ h (by omega)) (by omega)

end Sys2Proof.Machine
end

