-- ==== Sys2Proof/Laws/Ops.lean ====
section
/-! SUPPORT. One lemma per shared operation that says all it can do. -/

namespace Sys2Proof.Machine

/-- A checked execute phase answers a next state either because the check passed and the rest answered it, or because it
failed and the core stopped (40_cycle.md R96, R97). -/
theorem check_eq_next {c : Bool} {f : Fault} {s t : State} {body : Result} :
    check c f s body = .next t ↔ (c = true ∧ body = .next t) ∨ (c = false ∧ s.halt (.fault f) = t) := by
  cases c <;> simp [check, raise]

theorem check_pass {c : Bool} (f : Fault) (s : State) (body : Result) (h : c = true) : check c f s body = body := by
  simp [check, h]

theorem check_fail {c : Bool} (f : Fault) (s : State) (body : Result) (h : c = false) :
    check c f s body = .next (s.halt (.fault f)) := by
  simp [check, raise, h]

theorem inRam_iff (a n : Nat) : inRam a n = true ↔ a + n ≤ 4096 := by simp [inRam]

theorem foldl_setIfInBounds_getElem? {n : Nat} (dst : Vector Byte n) (k : Nat) (src : Nat → Byte) (j : Nat) :
    ((List.range k).foldl (fun d j => d.setIfInBounds j (src j)) dst)[j]? =
      if j < k ∧ j < n then some (src j) else dst[j]? := by
  induction k with
  | zero => simp
  | succ k ih =>
    rw [List.range_succ, List.foldl_append]
    simp only [List.foldl_cons, List.foldl_nil, Vector.getElem?_setIfInBounds]
    by_cases h : k = j
    · subst h
      by_cases hn : k < n
      · simp [hn]
      · simp [hn]
    · have hlt : j < k + 1 ↔ j < k := by omega
      simp [h, ih, hlt]

/-- Elements up to `x` are the source's, the others are kept. -/
theorem copyUpTo_getElem? {n : Nat} (dst : Vector Byte n) (x : Nat) (src : Nat → Byte) (j : Nat) :
    (copyUpTo dst x src)[j]? = if j ≤ x ∧ j < n then some (src j) else dst[j]? := by
  rw [copyUpTo, foldl_setIfInBounds_getElem?]; simp only [Nat.lt_succ_iff]

theorem copyUpTo_getElem {n : Nat} (dst : Vector Byte n) (x : Nat) (src : Nat → Byte) (j : Nat) (h : j < n) :
    (copyUpTo dst x src)[j] = if j ≤ x then src j else dst[j] := by
  have := copyUpTo_getElem? dst x src j
  rw [Vector.getElem?_eq_getElem h, Vector.getElem?_eq_getElem h] at this
  by_cases hx : j ≤ x <;> simpa [hx, h] using this

theorem State.length_firstV (s : State) (x : Reg) : (s.firstV x).length = x.val + 1 := by simp [State.firstV]

theorem State.firstV_getElem? (s : State) (x j : Reg) (h : j ≤ x) : (s.firstV x)[j.val]? = some (s.getV j) := by
  have : j.val < x.val + 1 := by simpa [Nat.lt_succ_iff] using h
  simp [State.firstV, State.getV, this]

theorem State.getV_eq_getElem? (s : State) (x : Reg) : s.v[x.val]? = some (s.getV x) := by
  simp [State.getV]

theorem State.key_setKey (s : State) (k j : Nat) (b : Bool) :
    (s.setKey k b).key j = if j = k ∧ k < 16 then b else s.key j := by
  by_cases h : j = k
  · subst h; by_cases hn : j < 16 <;> simp [State.key, hn]
  · simp [State.key, h, Ne.symm h]

theorem State.key_of_le (s : State) (k : Nat) (h : 16 ≤ k) : s.key k = false := by
  simp [State.key, h]

/-- Consuming a key releases it under `Smooth` and changes no key under `Static` (60_exceptions.md R255). -/
theorem State.key_consumeKey (s : State) (k j : Nat) :
    (s.consumeKey k).key j = if s.policy = .smooth ∧ j = k then false else s.key j := by
  unfold State.consumeKey
  cases hp : s.policy
  · simp
  · rw [State.key_setKey]
    by_cases h : j = k
    · subst h
      by_cases hn : j < 16
      · simp [hn]
      · simp [hn, State.key_of_le s j (by omega)]
    · simp [h]

/-- The pressed key is the lowest one (60_exceptions.md R254). -/
theorem State.pressedKey_eq_some (s : State) (k : Nat) :
    s.pressedKey = some k ↔ k < 16 ∧ s.key k = true ∧ ∀ j < k, s.key j = false := by
  simp [State.pressedKey, List.find?_range_eq_some]
  tauto

theorem State.pressedKey_eq_none (s : State) : s.pressedKey = none ↔ ∀ k < 16, s.key k = false := by
  simp [State.pressedKey]

theorem State.top_push (s : State) (a : Word) (h : s.sp.val ≤ 15) : (s.push a).top = a := by
  have h' : s.sp.val < 16 := by omega
  have : (s.sp.val + 1) % 17 - 1 = s.sp.val := by omega
  simp [State.top, this, h']

/-- `PC` after a latch, from an address the fetch accepts: exactly two more. -/
theorem State.latch_pc_toNat (s : State) (w : Word) (h : s.fetchable = true) :
    (s.latch w).pc.toNat = s.pc.toNat + 2 := by
  simp only [State.fetchable, decide_eq_true_eq] at h
  simp [BitVec.toNat_add]
  omega

end Sys2Proof.Machine
end

