-- ==== Sys2Proof/Laws/PerInstr.lean ====
section
/-! SUPPORT. Facts about every instruction as syntax, one lemma per constructor. -/

namespace Sys2Proof.Laws

/-- The word of an instruction matches a row of the opcode map that is enabled in every build the instruction is well
formed in, and that row builds the instruction back (30_encoding.md R74). -/
def OwnRow.Statement (i : Instr) : Prop :=
  ∃ r ∈ opcodeRows, (∀ ext, WellFormed ext i = true → (ext || !r.ext) = true) ∧
    rowMatches r (encodeWord i) = true ∧ r.build (fieldsOf (encodeWord i)) = i

theorem OwnRow.of {i : Instr} (k : Nat) (hk : k < opcodeRows.length)
    (h : (∀ ext, WellFormed ext i = true → (ext || !opcodeRows[k].ext) = true) ∧
      rowMatches opcodeRows[k] (encodeWord i) = true ∧ opcodeRows[k].build (fieldsOf (encodeWord i)) = i) :
    OwnRow.Statement i :=
  ⟨opcodeRows[k], List.getElem_mem _, h⟩

theorem OwnRow.cls : OwnRow.Statement .cls :=
  OwnRow.of 0 (by decide) (by simp [opcodeRows, rowsClass0, rowsClass1To7, rowsClass8, rowsClass9ToE, rowsClassF,
    WellFormed, rowMatches, nibbleFits, encodeWord])

theorem OwnRow.ret : OwnRow.Statement .ret :=
  OwnRow.of 1 (by decide) (by simp [opcodeRows, rowsClass0, rowsClass1To7, rowsClass8, rowsClass9ToE, rowsClassF,
    WellFormed, rowMatches, nibbleFits, encodeWord])

theorem OwnRow.scr : OwnRow.Statement .scr :=
  OwnRow.of 2 (by decide) (by simp [opcodeRows, rowsClass0, rowsClass1To7, rowsClass8, rowsClass9ToE, rowsClassF,
    WellFormed, rowMatches, nibbleFits, encodeWord])

theorem OwnRow.scl : OwnRow.Statement .scl :=
  OwnRow.of 3 (by decide) (by simp [opcodeRows, rowsClass0, rowsClass1To7, rowsClass8, rowsClass9ToE, rowsClassF,
    WellFormed, rowMatches, nibbleFits, encodeWord])

theorem OwnRow.low : OwnRow.Statement .low :=
  OwnRow.of 4 (by decide) (by simp [opcodeRows, rowsClass0, rowsClass1To7, rowsClass8, rowsClass9ToE, rowsClassF,
    WellFormed, rowMatches, nibbleFits, encodeWord])

theorem OwnRow.high : OwnRow.Statement .high :=
  OwnRow.of 5 (by decide) (by simp [opcodeRows, rowsClass0, rowsClass1To7, rowsClass8, rowsClass9ToE, rowsClassF,
    WellFormed, rowMatches, nibbleFits, encodeWord])

theorem OwnRow.scu (n : Count) : OwnRow.Statement (.scu n) :=
  OwnRow.of 6 (by decide) (by simp [opcodeRows, rowsClass0, rowsClass1To7, rowsClass8, rowsClass9ToE, rowsClassF,
    WellFormed, rowMatches, nibbleFits, encodeWord])

theorem OwnRow.scd (n : Count) : OwnRow.Statement (.scd n) :=
  OwnRow.of 7 (by decide) (by simp [opcodeRows, rowsClass0, rowsClass1To7, rowsClass8, rowsClass9ToE, rowsClassF,
    WellFormed, rowMatches, nibbleFits, encodeWord])

theorem OwnRow.jp (nnn : Index) : OwnRow.Statement (.jp nnn) :=
  OwnRow.of 8 (by decide) (by simp [opcodeRows, rowsClass0, rowsClass1To7, rowsClass8, rowsClass9ToE, rowsClassF,
    WellFormed, rowMatches, nibbleFits, encodeWord])

theorem OwnRow.call (nnn : Index) : OwnRow.Statement (.call nnn) :=
  OwnRow.of 9 (by decide) (by simp [opcodeRows, rowsClass0, rowsClass1To7, rowsClass8, rowsClass9ToE, rowsClassF,
    WellFormed, rowMatches, nibbleFits, encodeWord])

theorem OwnRow.seImm (x : Reg) (kk : Byte) : OwnRow.Statement (.seImm x kk) :=
  OwnRow.of 10 (by decide) (by simp [opcodeRows, rowsClass0, rowsClass1To7, rowsClass8, rowsClass9ToE, rowsClassF,
    WellFormed, rowMatches, nibbleFits, encodeWord])

theorem OwnRow.sneImm (x : Reg) (kk : Byte) : OwnRow.Statement (.sneImm x kk) :=
  OwnRow.of 11 (by decide) (by simp [opcodeRows, rowsClass0, rowsClass1To7, rowsClass8, rowsClass9ToE, rowsClassF,
    WellFormed, rowMatches, nibbleFits, encodeWord])

theorem OwnRow.seReg (x : Reg) (y : Reg) : OwnRow.Statement (.seReg x y) :=
  OwnRow.of 12 (by decide) (by simp [opcodeRows, rowsClass0, rowsClass1To7, rowsClass8, rowsClass9ToE, rowsClassF,
    WellFormed, rowMatches, nibbleFits, encodeWord])

theorem OwnRow.ldImm (x : Reg) (kk : Byte) : OwnRow.Statement (.ldImm x kk) :=
  OwnRow.of 13 (by decide) (by simp [opcodeRows, rowsClass0, rowsClass1To7, rowsClass8, rowsClass9ToE, rowsClassF,
    WellFormed, rowMatches, nibbleFits, encodeWord])

theorem OwnRow.addImm (x : Reg) (kk : Byte) : OwnRow.Statement (.addImm x kk) :=
  OwnRow.of 14 (by decide) (by simp [opcodeRows, rowsClass0, rowsClass1To7, rowsClass8, rowsClass9ToE, rowsClassF,
    WellFormed, rowMatches, nibbleFits, encodeWord])

theorem OwnRow.ldReg (x : Reg) (y : Reg) : OwnRow.Statement (.ldReg x y) :=
  OwnRow.of 15 (by decide) (by simp [opcodeRows, rowsClass0, rowsClass1To7, rowsClass8, rowsClass9ToE, rowsClassF,
    WellFormed, rowMatches, nibbleFits, encodeWord])

theorem OwnRow.orReg (x : Reg) (y : Reg) : OwnRow.Statement (.orReg x y) :=
  OwnRow.of 16 (by decide) (by simp [opcodeRows, rowsClass0, rowsClass1To7, rowsClass8, rowsClass9ToE, rowsClassF,
    WellFormed, rowMatches, nibbleFits, encodeWord])

theorem OwnRow.andReg (x : Reg) (y : Reg) : OwnRow.Statement (.andReg x y) :=
  OwnRow.of 17 (by decide) (by simp [opcodeRows, rowsClass0, rowsClass1To7, rowsClass8, rowsClass9ToE, rowsClassF,
    WellFormed, rowMatches, nibbleFits, encodeWord])

theorem OwnRow.xorReg (x : Reg) (y : Reg) : OwnRow.Statement (.xorReg x y) :=
  OwnRow.of 18 (by decide) (by simp [opcodeRows, rowsClass0, rowsClass1To7, rowsClass8, rowsClass9ToE, rowsClassF,
    WellFormed, rowMatches, nibbleFits, encodeWord])

theorem OwnRow.addReg (x : Reg) (y : Reg) : OwnRow.Statement (.addReg x y) :=
  OwnRow.of 19 (by decide) (by simp [opcodeRows, rowsClass0, rowsClass1To7, rowsClass8, rowsClass9ToE, rowsClassF,
    WellFormed, rowMatches, nibbleFits, encodeWord])

theorem OwnRow.sub (x : Reg) (y : Reg) : OwnRow.Statement (.sub x y) :=
  OwnRow.of 20 (by decide) (by simp [opcodeRows, rowsClass0, rowsClass1To7, rowsClass8, rowsClass9ToE, rowsClassF,
    WellFormed, rowMatches, nibbleFits, encodeWord])

theorem OwnRow.shr (x : Reg) (y : Reg) : OwnRow.Statement (.shr x y) :=
  OwnRow.of 21 (by decide) (by simp [opcodeRows, rowsClass0, rowsClass1To7, rowsClass8, rowsClass9ToE, rowsClassF,
    WellFormed, rowMatches, nibbleFits, encodeWord])

theorem OwnRow.subn (x : Reg) (y : Reg) : OwnRow.Statement (.subn x y) :=
  OwnRow.of 22 (by decide) (by simp [opcodeRows, rowsClass0, rowsClass1To7, rowsClass8, rowsClass9ToE, rowsClassF,
    WellFormed, rowMatches, nibbleFits, encodeWord])

theorem OwnRow.shl (x : Reg) (y : Reg) : OwnRow.Statement (.shl x y) :=
  OwnRow.of 23 (by decide) (by simp [opcodeRows, rowsClass0, rowsClass1To7, rowsClass8, rowsClass9ToE, rowsClassF,
    WellFormed, rowMatches, nibbleFits, encodeWord])

theorem OwnRow.sneReg (x : Reg) (y : Reg) : OwnRow.Statement (.sneReg x y) :=
  OwnRow.of 24 (by decide) (by simp [opcodeRows, rowsClass0, rowsClass1To7, rowsClass8, rowsClass9ToE, rowsClassF,
    WellFormed, rowMatches, nibbleFits, encodeWord])

theorem OwnRow.ldI (nnn : Index) : OwnRow.Statement (.ldI nnn) :=
  OwnRow.of 25 (by decide) (by simp [opcodeRows, rowsClass0, rowsClass1To7, rowsClass8, rowsClass9ToE, rowsClassF,
    WellFormed, rowMatches, nibbleFits, encodeWord])

theorem OwnRow.jpV0 (nnn : Index) : OwnRow.Statement (.jpV0 nnn) :=
  OwnRow.of 26 (by decide) (by simp [opcodeRows, rowsClass0, rowsClass1To7, rowsClass8, rowsClass9ToE, rowsClassF,
    WellFormed, rowMatches, nibbleFits, encodeWord])

theorem OwnRow.rnd (x : Reg) (kk : Byte) : OwnRow.Statement (.rnd x kk) :=
  OwnRow.of 27 (by decide) (by simp [opcodeRows, rowsClass0, rowsClass1To7, rowsClass8, rowsClass9ToE, rowsClassF,
    WellFormed, rowMatches, nibbleFits, encodeWord])

theorem OwnRow.drw16 (x : Reg) (y : Reg) : OwnRow.Statement (.drw16 x y) :=
  OwnRow.of 28 (by decide) (by simp [opcodeRows, rowsClass0, rowsClass1To7, rowsClass8, rowsClass9ToE, rowsClassF,
    WellFormed, rowMatches, nibbleFits, encodeWord])

theorem OwnRow.drw (x : Reg) (y : Reg) (n : Count) : OwnRow.Statement (.drw x y n) :=
  OwnRow.of 29 (by decide) (by simp [opcodeRows, rowsClass0, rowsClass1To7, rowsClass8, rowsClass9ToE, rowsClassF,
    WellFormed, rowMatches, nibbleFits, encodeWord])

theorem OwnRow.skp (x : Reg) : OwnRow.Statement (.skp x) :=
  OwnRow.of 30 (by decide) (by simp [opcodeRows, rowsClass0, rowsClass1To7, rowsClass8, rowsClass9ToE, rowsClassF,
    WellFormed, rowMatches, nibbleFits, encodeWord])

theorem OwnRow.sknp (x : Reg) : OwnRow.Statement (.sknp x) :=
  OwnRow.of 31 (by decide) (by simp [opcodeRows, rowsClass0, rowsClass1To7, rowsClass8, rowsClass9ToE, rowsClassF,
    WellFormed, rowMatches, nibbleFits, encodeWord])

theorem OwnRow.ldVxDT (x : Reg) : OwnRow.Statement (.ldVxDT x) :=
  OwnRow.of 32 (by decide) (by simp [opcodeRows, rowsClass0, rowsClass1To7, rowsClass8, rowsClass9ToE, rowsClassF,
    WellFormed, rowMatches, nibbleFits, encodeWord])

theorem OwnRow.ldK (x : Reg) : OwnRow.Statement (.ldK x) :=
  OwnRow.of 33 (by decide) (by simp [opcodeRows, rowsClass0, rowsClass1To7, rowsClass8, rowsClass9ToE, rowsClassF,
    WellFormed, rowMatches, nibbleFits, encodeWord])

theorem OwnRow.ldDT (x : Reg) : OwnRow.Statement (.ldDT x) :=
  OwnRow.of 34 (by decide) (by simp [opcodeRows, rowsClass0, rowsClass1To7, rowsClass8, rowsClass9ToE, rowsClassF,
    WellFormed, rowMatches, nibbleFits, encodeWord])

theorem OwnRow.ldST (x : Reg) : OwnRow.Statement (.ldST x) :=
  OwnRow.of 35 (by decide) (by simp [opcodeRows, rowsClass0, rowsClass1To7, rowsClass8, rowsClass9ToE, rowsClassF,
    WellFormed, rowMatches, nibbleFits, encodeWord])

theorem OwnRow.addI (x : Reg) : OwnRow.Statement (.addI x) :=
  OwnRow.of 36 (by decide) (by simp [opcodeRows, rowsClass0, rowsClass1To7, rowsClass8, rowsClass9ToE, rowsClassF,
    WellFormed, rowMatches, nibbleFits, encodeWord])

theorem OwnRow.ldF (x : Reg) : OwnRow.Statement (.ldF x) :=
  OwnRow.of 37 (by decide) (by simp [opcodeRows, rowsClass0, rowsClass1To7, rowsClass8, rowsClass9ToE, rowsClassF,
    WellFormed, rowMatches, nibbleFits, encodeWord])

theorem OwnRow.ldHF (x : Reg) : OwnRow.Statement (.ldHF x) :=
  OwnRow.of 38 (by decide) (by simp [opcodeRows, rowsClass0, rowsClass1To7, rowsClass8, rowsClass9ToE, rowsClassF,
    WellFormed, rowMatches, nibbleFits, encodeWord])

theorem OwnRow.ldB (x : Reg) : OwnRow.Statement (.ldB x) :=
  OwnRow.of 39 (by decide) (by simp [opcodeRows, rowsClass0, rowsClass1To7, rowsClass8, rowsClass9ToE, rowsClassF,
    WellFormed, rowMatches, nibbleFits, encodeWord])

theorem OwnRow.ldMemStore (x : Reg) : OwnRow.Statement (.ldMemStore x) :=
  OwnRow.of 40 (by decide) (by simp [opcodeRows, rowsClass0, rowsClass1To7, rowsClass8, rowsClass9ToE, rowsClassF,
    WellFormed, rowMatches, nibbleFits, encodeWord])

theorem OwnRow.ldMemLoad (x : Reg) : OwnRow.Statement (.ldMemLoad x) :=
  OwnRow.of 41 (by decide) (by simp [opcodeRows, rowsClass0, rowsClass1To7, rowsClass8, rowsClass9ToE, rowsClassF,
    WellFormed, rowMatches, nibbleFits, encodeWord])

theorem OwnRow.ldRStore (x : Reg) : OwnRow.Statement (.ldRStore x) :=
  OwnRow.of 42 (by decide) (by simp [opcodeRows, rowsClass0, rowsClass1To7, rowsClass8, rowsClass9ToE, rowsClassF,
    WellFormed, rowMatches, nibbleFits, encodeWord])

theorem OwnRow.ldRLoad (x : Reg) : OwnRow.Statement (.ldRLoad x) :=
  OwnRow.of 43 (by decide) (by simp [opcodeRows, rowsClass0, rowsClass1To7, rowsClass8, rowsClass9ToE, rowsClassF,
    WellFormed, rowMatches, nibbleFits, encodeWord])

end Sys2Proof.Laws
end

