-- ==== Sys2Proof/Laws/Screen.lean ====
section
/-! SUPPORT. The laws of the graphics buffer: what a built, a blank and a flipped buffer hold, and their shapes. -/

namespace Sys2Proof.Machine

variable (w h : Nat)

theorem Screen.shaped_build (f : Nat → Nat → Bool) : Screen.shaped w h (Screen.build w h f) := by
  refine ⟨by simp [Screen.build], ?_⟩
  intro row hr
  simp only [Screen.build, List.mem_map] at hr
  obtain ⟨r, -, rfl⟩ := hr
  simp

theorem Screen.pixel_build (f : Nat → Nat → Bool) {r c : Nat} (hr : r < h) (hc : c < w) :
    Screen.pixel (Screen.build w h f) r c = f r c := by
  simp [Screen.pixel, Screen.build, List.getD_eq_getElem?_getD, hr, hc]

theorem Screen.shaped_blank : Screen.shaped w h (Screen.blank w h) := by
  refine ⟨by simp [Screen.blank], ?_⟩
  intro row hr
  rw [Screen.blank, List.mem_replicate] at hr
  simp [hr.2]

theorem Screen.pixel_blank (r c : Nat) : Screen.pixel (Screen.blank w h) r c = false := by
  simp only [Screen.pixel, Screen.blank, List.getD_eq_getElem?_getD, List.getElem?_replicate]
  split
  · simp only [Option.getD_some, List.getElem?_replicate]; split <;> rfl
  · simp

theorem Screen.shaped_flip (g : Pixels) (r c : Nat) (hg : Screen.shaped w h g) :
    Screen.shaped w h (Screen.flip g r c) := by
  refine ⟨by simpa [Screen.flip] using hg.1, ?_⟩
  intro row hr
  obtain ⟨j, hj⟩ := List.mem_iff_getElem?.1 hr
  rw [Screen.flip, List.getElem?_modify] at hj
  cases hgj : g[j]? with
  | none => simp [hgj] at hj
  | some old =>
    have hold := hg.2 old (List.mem_of_getElem? hgj)
    by_cases hrj : r = j
    · simp [hgj, hrj] at hj; simpa [← hj] using hold
    · simp [hgj, hrj] at hj; simpa [← hj] using hold

/-- A flip inside the buffer changes its own pixel and no other. -/
theorem Screen.pixel_flip (g : Pixels) {pr pc : Nat} (r c : Nat) (hg : Screen.shaped w h g) (hr : pr < h) (hc : pc < w) :
    Screen.pixel (Screen.flip g pr pc) r c = (Screen.pixel g r c ^^ (pr == r && pc == c)) := by
  have hpr : pr < g.length := by rw [hg.1]; exact hr
  have hrow : (g[pr]).length = w := hg.2 _ (List.getElem_mem hpr)
  simp only [Screen.pixel, Screen.flip, List.getD_eq_getElem?_getD, List.getElem?_modify]
  by_cases h1 : pr = r
  · subst h1
    by_cases h2 : pc = c
    · subst h2
      simp [List.getElem?_eq_getElem hpr, List.getElem?_eq_getElem (hrow.symm ▸ hc)]
    · simp [List.getElem?_eq_getElem hpr, h2, beq_eq_false_iff_ne.2 h2]
  · simp [h1, beq_eq_false_iff_ne.2 h1]

theorem Screen.shaped_xorPixel (pr pc : Nat) (bit : Bool) (d : Drawing) (hd : Screen.shaped w h d.gfx) :
    Screen.shaped w h (Screen.xorPixel pr pc bit d).gfx := by
  cases bit
  · exact hd
  · exact Screen.shaped_flip w h _ _ _ hd

theorem Screen.shaped_xorRow (col0 row0 r : Nat) {n : Nat} (bits : BitVec n) (d : Drawing)
    (hd : Screen.shaped w h d.gfx) : Screen.shaped w h (Screen.xorRow w h col0 row0 r bits d).gfx := by
  unfold Screen.xorRow
  generalize List.range n = cs
  induction cs generalizing d with
  | nil => exact hd
  | cons c rest ih => exact ih _ (Screen.shaped_xorPixel w h _ _ _ _ hd)

/-- Drawing keeps the shape of the buffer. -/
theorem Screen.shaped_xorRowsFrom (col0 row0 r : Nat) {n : Nat} (rows : List (BitVec n)) (d : Drawing)
    (hd : Screen.shaped w h d.gfx) : Screen.shaped w h (Screen.xorRowsFrom w h col0 row0 r rows d).gfx := by
  induction rows generalizing r d with
  | nil => exact hd
  | cons bits rest ih => exact ih _ _ (Screen.shaped_xorRow w h _ _ _ _ _ hd)

end Sys2Proof.Machine
end

