-- ==== Sys2Proof/Laws/Step.lean ====
section
/-! SUPPORT. What a step can do, said once (40_cycle.md R90). -/

namespace Sys2Proof.Machine

/-- The bytes fetched, as a word: `OP` after the latch. -/
theorem decode_fetchBytes (s : State) : decode s.cfg.ext s.fetchBytes =
    match decodeWord s.cfg.ext s.fetchedWord with
    | some i => .ok (i, [])
    | none => .error (.unknownOpcode s.fetchedWord) := rfl

/-- A step does one of four things: nothing, when Stopped; a stop in place, when the fetch is out of range; the decoded
instruction, after the latch and the advance; or a stop on an unknown word. -/
theorem step_cases {s t : State} (h : step s = .next t) :
    (s.cpu = .stopped ∧ t = s) ∨
    (s.cpu = .running ∧ s.fetchable = false ∧ t = s.halt (.fault .fetchOutOfRange)) ∨
    (s.cpu = .running ∧ s.fetchable = true ∧
      ∃ i, decodeWord s.cfg.ext s.fetchedWord = some i ∧ exec i (s.latch s.fetchedWord) = .next t) ∨
    (s.cpu = .running ∧ s.fetchable = true ∧ decodeWord s.cfg.ext s.fetchedWord = none ∧
      t = (s.latch s.fetchedWord).halt .unknownOpcode) := by
  unfold step at h
  cases hc : s.cpu with
  | stopped => simp only [hc, Host.Outcome.next.injEq] at h; exact .inl ⟨rfl, h.symm⟩
  | running =>
    cases hf : s.fetchable with
    | false =>
      simp only [hc, hf, raise, Host.Outcome.next.injEq, Bool.false_eq_true, if_false] at h
      exact .inr (.inl ⟨rfl, rfl, h.symm⟩)
    | true =>
      simp only [hc, hf, if_true, runFetched, State.latch_cfg, decode_fetchBytes] at h
      cases hd : decodeWord s.cfg.ext s.fetchedWord with
      | some i => rw [hd] at h; exact .inr (.inr (.inl ⟨rfl, rfl, i, rfl, h⟩))
      | none =>
        simp only [hd, Host.Outcome.next.injEq] at h
        exact .inr (.inr (.inr ⟨rfl, rfl, rfl, h.symm⟩))

/-- A running core whose fetch is in range and whose word decodes runs it. -/
theorem step_of_decode {s : State} {i : Instr} (hc : s.cpu = .running) (hf : s.fetchable = true)
    (hd : decodeWord s.cfg.ext s.fetchedWord = some i) : step s = exec i (s.latch s.fetchedWord) := by
  simp [step, hc, hf, runFetched, decode_fetchBytes, hd]

/-- What a command that is not refused answers is what `after` gives. -/
theorem State.after_of_next {s t : State} {c : Command} (h : s.command c = .next t) : s.after c = t := by
  simp [State.after, h]

end Sys2Proof.Machine
end

