-- ==== Sys2Proof/Tests/Slice0.lean ====
section
/-! SUPPORT. Tests. Words are written out from 30_encoding.md R74; expected results are those of 95_test_vectors.md (the
vector is named) or of the worked examples of the rules. The witnesses at the end meet the hypotheses of the statements. -/

namespace Sys2Proof.Tests

open Sys2Proof.Machine

/-- The constructed core of the reference configuration, `PC = 0x300`: the start of the vectors. -/
def rc : State := { State.construct referenceBuild with pc := 0x300 }

/-- The same in the extended build. -/
def ext : State := { State.construct constructionBuild with pc := 0x300 }

/-- One step with this word at `PC`. -/
def run1 (s : State) (w : Word) : State :=
  match step (s.placeWord w) with
  | .next t => t
  | .fault _ => s
  | .refused _ => s

/-- Registers `V0`, `V1` and `VF` set. -/
def withV (s : State) (v0 v1 vf : Byte) : State := ((s.setV 0 v0).setV 1 v1).setV 15 vf

/-! ## WellFormed refuses an ill-formed term for each check -/

theorem test_wellFormed_scr : WellFormed false .scr = false := by decide
theorem test_wellFormed_scl : WellFormed false .scl = false := by decide
theorem test_wellFormed_low : WellFormed false .low = false := by decide
theorem test_wellFormed_high : WellFormed false .high = false := by decide
theorem test_wellFormed_scu : WellFormed false (.scu 1) = false := by decide
theorem test_wellFormed_scd : WellFormed false (.scd 1) = false := by decide
theorem test_wellFormed_drw16 : WellFormed false (.drw16 1 2) = false := by decide
theorem test_wellFormed_ldHF : WellFormed false (.ldHF 1) = false := by decide
theorem test_wellFormed_ldRStore : WellFormed false (.ldRStore 1) = false := by decide
theorem test_wellFormed_ldRLoad : WellFormed false (.ldRLoad 1) = false := by decide
theorem test_wellFormed_drw_zero_rows : WellFormed true (.drw 1 2 0) = false := by decide

/-! ## Decoding: a word for every constructor (30_encoding.md R74) -/

theorem test_decode_class0 :
    decode true [0x00, 0xE0] = .ok (.cls, []) ∧ decode true [0x00, 0xEE] = .ok (.ret, []) ∧
    decode true [0x00, 0xFB] = .ok (.scr, []) ∧ decode true [0x00, 0xFC] = .ok (.scl, []) ∧
    decode true [0x00, 0xFE] = .ok (.low, []) ∧ decode true [0x00, 0xFF] = .ok (.high, []) ∧
    decode true [0x00, 0xB2] = .ok (.scu 2, []) ∧ decode true [0x00, 0xCF] = .ok (.scd 15, []) := by decide

theorem test_decode_flow :
    decode false [0x14, 0x56] = .ok (.jp 0x456, []) ∧ decode false [0x24, 0x00] = .ok (.call 0x400, []) ∧
    decode false [0x31, 0x42] = .ok (.seImm 1 0x42, []) ∧ decode false [0x41, 0x43] = .ok (.sneImm 1 0x43, []) ∧
    decode false [0x51, 0x20] = .ok (.seReg 1 2, []) ∧ decode false [0x91, 0x20] = .ok (.sneReg 1 2, []) ∧
    decode false [0xBF, 0xFF] = .ok (.jpV0 0xFFF, []) := by decide

theorem test_decode_alu :
    decode false [0x6A, 0xFF] = .ok (.ldImm 10 0xFF, []) ∧ decode false [0x7A, 0x01] = .ok (.addImm 10 1, []) ∧
    decode false [0x80, 0x10] = .ok (.ldReg 0 1, []) ∧ decode false [0x80, 0x11] = .ok (.orReg 0 1, []) ∧
    decode false [0x80, 0x12] = .ok (.andReg 0 1, []) ∧ decode false [0x80, 0x13] = .ok (.xorReg 0 1, []) := by decide

theorem test_decode_alu_flags :
    decode false [0x8A, 0xB4] = .ok (.addReg 10 11, []) ∧ decode false [0x80, 0x15] = .ok (.sub 0 1, []) ∧
    decode false [0x80, 0x16] = .ok (.shr 0 1, []) ∧ decode false [0x80, 0x17] = .ok (.subn 0 1, []) ∧
    decode false [0x80, 0x1E] = .ok (.shl 0 1, []) ∧ decode false [0xC1, 0x0F] = .ok (.rnd 1 0x0F, []) := by decide

theorem test_decode_index_display_keys :
    decode false [0xA1, 0x23] = .ok (.ldI 0x123, []) ∧ decode false [0xD1, 0x25] = .ok (.drw 1 2 5, []) ∧
    decode true [0xD1, 0x20] = .ok (.drw16 1 2, []) ∧ decode false [0xD1, 0x20] = .ok (.drw 1 2 0, []) ∧
    decode false [0xE4, 0x9E] = .ok (.skp 4, []) ∧ decode false [0xE4, 0xA1] = .ok (.sknp 4, []) := by decide

theorem test_decode_classF :
    decode true [0xF5, 0x07] = .ok (.ldVxDT 5, []) ∧ decode true [0xF3, 0x0A] = .ok (.ldK 3, []) ∧
    decode true [0xF5, 0x15] = .ok (.ldDT 5, []) ∧ decode true [0xF6, 0x18] = .ok (.ldST 6, []) ∧
    decode true [0xF2, 0x1E] = .ok (.addI 2, []) ∧ decode true [0xF0, 0x29] = .ok (.ldF 0, []) := by decide

theorem test_decode_classF_memory :
    decode true [0xF0, 0x30] = .ok (.ldHF 0, []) ∧ decode true [0xF0, 0x33] = .ok (.ldB 0, []) ∧
    decode true [0xF2, 0x55] = .ok (.ldMemStore 2, []) ∧ decode true [0xF2, 0x65] = .ok (.ldMemLoad 2, []) ∧
    decode true [0xF7, 0x75] = .ok (.ldRStore 7, []) ∧ decode true [0xF1, 0x85] = .ok (.ldRLoad 1, []) := by decide

/-- Vectors T6 to T11, X19, Scenario D, and bytes that end early. -/
theorem test_decode_refuses :
    decode false [0x01, 0x23] = .error (.unknownOpcode 0x0123) ∧
    decode false [0x51, 0x21] = .error (.unknownOpcode 0x5121) ∧
    decode false [0x80, 0x08] = .error (.unknownOpcode 0x8008) ∧
    decode false [0xE0, 0x00] = .error (.unknownOpcode 0xE000) ∧
    decode true [0x00, 0xFD] = .error (.unknownOpcode 0x00FD) ∧
    decode false [0x00, 0xFB] = .error (.unknownOpcode 0x00FB) ∧
    decode false [0xF0, 0x30] = .error (.unknownOpcode 0xF030) ∧
    decode true [0xFF, 0xFF] = .error (.unknownOpcode 0xFFFF) ∧
    decode true [0xD1] = .error .truncated := by decide

/-- The mask and match columns of 30_encoding.md R74 for the rows where a nibble of the mask is 0. -/
theorem test_row_masks :
    (opcodeRows.map rowMask).count 0xFFFF = 6 ∧ (opcodeRows.map rowMask).count 0xFFF0 = 2 ∧
    (opcodeRows.map rowMask).count 0xF000 = 10 ∧ (opcodeRows.map rowMask).count 0xF00F = 12 ∧
    (opcodeRows.map rowMask).count 0xF0FF = 14 ∧ opcodeRows.length = 44 := by decide

theorem test_encode_drw : encode (.drw 1 2 5) = [0xD1, 0x25] := by decide
theorem test_decodeTableWord : decodeTableWord 16 0x8AB4 = some (.addReg 10 11) := by decide

/-! ## The cycle (vectors T1 to T6) -/

theorem test_T1_fetch_at_FFE :
    (run1 { rc with pc := 0xFFE } 0x6011).getV 0 = 0x11 ∧ (run1 { rc with pc := 0xFFE } 0x6011).pc = 0x1000 := by decide

theorem test_T3_fetch_out_of_range :
    step { rc with pc := 0xFFF } = .next { rc with pc := 0xFFF, cpu := .stopped, stop := some (.fault .fetchOutOfRange) } :=
  rfl

theorem test_T4_odd_pc :
    (run1 { rc with pc := 0x301 } 0x6A05).getV 10 = 5 ∧ (run1 { rc with pc := 0x301 } 0x6A05).pc = 0x303 := by decide

theorem test_T5_stopped : step { rc with cpu := .stopped } = .next { rc with cpu := .stopped } := rfl

theorem test_T6_unknown_word :
    (run1 rc 0x0123).pc = 0x302 ∧ (run1 rc 0x0123).cpu = .stopped ∧ (run1 rc 0x0123).stop = some .unknownOpcode ∧
    (run1 rc 0x0123).op = 0x0123 := by decide

/-! ## Control transfer (vectors F1 to F17) -/

theorem test_F1_jp : (run1 rc 0x1456).pc = 0x456 := by decide

theorem test_F2_call :
    (run1 rc 0x2400).stack[0] = 0x302 ∧ (run1 rc 0x2400).sp = 1 ∧ (run1 rc 0x2400).pc = 0x400 := by decide

theorem test_F3_call_overflow :
    (run1 { rc with sp := 16 } 0x2400).stop = some (.fault .stackOverflow) ∧
    (run1 { rc with sp := 16 } 0x2400).pc = 0x302 ∧ (run1 { rc with sp := 16 } 0x2400).sp = 16 := by decide

theorem test_F4_ret :
    (run1 { rc with sp := 1, stack := rc.stack.set 0 0x222 } 0x00EE).pc = 0x222 ∧
    (run1 { rc with sp := 1, stack := rc.stack.set 0 0x222 } 0x00EE).sp = 0 := by decide

theorem test_F5_ret_underflow : (run1 rc 0x00EE).stop = some (.fault .stackUnderflow) := by decide

theorem test_F6_F7_se_imm :
    (run1 (rc.setV 1 0x42) 0x3142).pc = 0x304 ∧ (run1 (rc.setV 1 0x42) 0x3143).pc = 0x302 := by decide

theorem test_F8_F9_sne_imm :
    (run1 (rc.setV 1 0x42) 0x4142).pc = 0x302 ∧ (run1 (rc.setV 1 0x42) 0x4143).pc = 0x304 := by decide

theorem test_F10_F11_se_reg :
    (run1 ((rc.setV 1 7).setV 2 7) 0x5120).pc = 0x304 ∧ (run1 ((rc.setV 1 7).setV 2 8) 0x5120).pc = 0x302 := by decide

theorem test_F12_F13_sne_reg :
    (run1 ((rc.setV 1 7).setV 2 7) 0x9120).pc = 0x302 ∧ (run1 ((rc.setV 1 7).setV 2 8) 0x9120).pc = 0x304 := by decide

theorem test_F14_F15_jp_v0 :
    (run1 (rc.setV 0 4) 0xB300).pc = 0x304 ∧ (run1 (rc.setV 0 0xFF) 0xBFFF).pc = 0x10FE := by decide

/-! ## Arithmetic and logic (vectors A1 to A22) -/

theorem test_A1_ld_imm : (run1 rc 0x6AFF).getV 10 = 0xFF ∧ (run1 rc 0x6AFF).pc = 0x302 := by decide

theorem test_A2_add_imm :
    (run1 ((rc.setV 10 2).setV 15 7) 0x7AFF).getV 10 = 1 ∧ (run1 ((rc.setV 10 2).setV 15 7) 0x7AFF).getV 15 = 7 := by
  decide

theorem test_A3_ld_reg : (run1 (rc.setV 1 0x33) 0x8010).getV 0 = 0x33 := by decide

theorem test_A4_or :
    (run1 (withV rc 0xF0 0x0F 7) 0x8011).getV 0 = 0xFF ∧ (run1 (withV rc 0xF0 0x0F 7) 0x8011).getV 15 = 7 := by
  decide

theorem test_A5_and : (run1 (withV rc 0xF0 0x3C 7) 0x8012).getV 0 = 0x30 := by decide

theorem test_A6_xor : (run1 (withV rc 0xF0 0x3C 7) 0x8013).getV 0 = 0xCC := by decide

theorem test_A7_add_reg :
    (run1 (withV rc 0xFF 1 0) 0x8014).getV 0 = 0 ∧ (run1 (withV rc 0xFF 1 0) 0x8014).getV 15 = 1 := by decide

theorem test_A9_add_into_vf : (run1 (withV rc 0x80 0 0x80) 0x8F04).getV 15 = 1 := by decide

theorem test_A10_sub_equal :
    (run1 (withV rc 5 5 0) 0x8015).getV 0 = 0 ∧ (run1 (withV rc 5 5 0) 0x8015).getV 15 = 1 := by decide

theorem test_A11_sub_borrow :
    (run1 (withV rc 5 6 1) 0x8015).getV 0 = 0xFF ∧ (run1 (withV rc 5 6 1) 0x8015).getV 15 = 0 := by decide

theorem test_A12_A13_subn :
    (run1 (withV rc 5 6 0) 0x8017).getV 0 = 1 ∧ (run1 (withV rc 5 6 0) 0x8017).getV 15 = 1 ∧
    (run1 (withV rc 6 5 0) 0x8017).getV 0 = 0xFF ∧ (run1 (withV rc 6 5 0) 0x8017).getV 15 = 0 := by decide

theorem test_A15_shr_x :
    (run1 (withV rc 5 4 0) 0x8016).getV 0 = 2 ∧ (run1 (withV rc 5 4 0) 0x8016).getV 15 = 1 := by decide

theorem test_A16_shr_y :
    (run1 { withV rc 5 4 1 with cfg := { referenceBuild with shiftSrc := .y } } 0x8016).getV 0 = 2 ∧
    (run1 { withV rc 5 4 1 with cfg := { referenceBuild with shiftSrc := .y } } 0x8016).getV 15 = 0 := by decide

theorem test_A17_shl_x :
    (run1 (withV rc 0x81 0x40 0) 0x801E).getV 0 = 2 ∧ (run1 (withV rc 0x81 0x40 0) 0x801E).getV 15 = 1 := by
  decide

theorem test_A18_shl_y :
    (run1 { withV rc 0x81 0x40 1 with cfg := { referenceBuild with shiftSrc := .y } } 0x801E).getV 0 = 0x80 ∧
    (run1 { withV rc 0x81 0x40 1 with cfg := { referenceBuild with shiftSrc := .y } } 0x801E).getV 15 = 0 := by
  decide

theorem test_A21_rnd_mask_zero : (run1 (rc.setV 1 7) 0xC100).getV 1 = 0 := by
  show (Config.drawByte 0 &&& 0) = 0
  simp

/-! ## Index and memory (vectors M1 to M16) -/

/-- `PC = 0x200`, `I` given. -/
def withI (s : State) (i : Index) : State := { s with pc := 0x200, i := i }

theorem test_M1_ld_i : (run1 rc 0xA123).i = 0x123 := by decide

theorem test_M2_M3_add_i :
    (run1 ((rc.setV 2 0xFF).setI 0xF00) 0xF21E).i = 0xFFF ∧
    (run1 ((rc.setV 2 1).setI 0xFFF) 0xF21E).stop = some (.fault .indexOverflow) := by decide

theorem test_M4_M5_ld_f : (run1 (rc.setV 0 0xA) 0xF029).i = 0x032 ∧ (run1 (rc.setV 0 0x10) 0xF029).i = 0x050 := by decide

theorem test_M8_ld_b_top :
    (run1 (withI (rc.setV 0 0x7B) 0xFFD) 0xF033).readMem 0xFFD = 1 ∧
    (run1 (withI (rc.setV 0 0x7B) 0xFFD) 0xF033).readMem 0xFFE = 2 ∧
    (run1 (withI (rc.setV 0 0x7B) 0xFFD) 0xF033).readMem 0xFFF = 3 := by decide

theorem test_M9_ld_b_out_of_range :
    (run1 (withI (rc.setV 0 0x7B) 0xFFE) 0xF033).stop = some (.fault .memOutOfRange) ∧
    (run1 (withI (rc.setV 0 0x7B) 0xFFE) 0xF033).readMem 0xFFE = 0 := by decide

/-- `LS_I_INC = X_PLUS_1`. -/
def xPlusOne : Config := { referenceBuild with lsIInc := .xPlusOne }

theorem test_M12_store :
    (run1 (withI ((withV rc 0x11 0x22 0).setV 2 0x33) 0xFFD) 0xF255).readMem 0xFFF = 0x33 ∧
    (run1 (withI ((withV rc 0x11 0x22 0).setV 2 0x33) 0xFFD) 0xF255).readMem 0xFFD = 0x11 ∧
    (run1 (withI ((withV rc 0x11 0x22 0).setV 2 0x33) 0xFFD) 0xF255).i = 0xFFD := by decide

theorem test_M13_store_advance_overflow :
    (run1 { withI rc 0xFFD with cfg := xPlusOne } 0xF255).stop = some (.fault .indexOverflow) ∧
    (run1 { withI rc 0x300 with cfg := xPlusOne } 0xFF55).i = 0x310 := by decide

theorem test_M15_load :
    (run1 (State.writeBytes (withI rc 0x300) 0x300 [2, 5, 4]) 0xF265).getV 0 = 2 ∧
    (run1 (State.writeBytes (withI rc 0x300) 0x300 [2, 5, 4]) 0xF265).getV 2 = 4 := by decide

theorem test_M16_load_into_vf :
    (run1 (State.writeBytes (withI rc 0x300) 0x30F [0x1F]) 0xFF65).getV 15 = 0x1F := by decide

/-! ## Display (vectors D1 to D11) -/

theorem test_D1_cls :
    Screen.pixel (run1 { rc with gfx := Screen.flip rc.gfx 31 63 } 0x00E0).gfx 31 63 = false := by decide

theorem test_D6_drw_collision :
    (run1 { rc with gfx := Screen.flip rc.gfx 0 0 } 0xD015).getV 15 = 1 ∧
    Screen.pixel (run1 { rc with gfx := Screen.flip rc.gfx 0 0 } 0xD015).gfx 0 0 = false ∧
    Screen.pixel (run1 { rc with gfx := Screen.flip rc.gfx 0 0 } 0xD015).gfx 4 3 = true := by decide

theorem test_D4_drw_wraps :
    Screen.pixel (run1 (State.writeBytes (withI (withV rc 60 31 0) 0x300) 0x300 [0x80, 0x80]) 0xD012).gfx 0 60
      = true ∧
    Screen.pixel (run1 (State.writeBytes (withI (withV rc 60 31 0) 0x300) 0x300 [0x80, 0x80]) 0xD012).gfx 31 60
      = true := by decide

/-! ## Keys and timers (vectors K1 to K16) -/

/-- `V4 = 7`, key 7 pressed, the policy given. -/
def key7 (p : Policy) : State := { (rc.setV 4 7).setKey 7 true with policy := p }

theorem test_K1_K2_skp :
    (run1 (key7 .static) 0xE49E).pc = 0x304 ∧ (run1 (key7 .static) 0xE49E).key 7 = true ∧
    (run1 (key7 .smooth) 0xE49E).pc = 0x304 ∧ (run1 (key7 .smooth) 0xE49E).key 7 = false := by decide

theorem test_K3_K6_skp_up_and_index :
    (run1 (rc.setV 4 7) 0xE49E).pc = 0x302 ∧ (run1 (rc.setV 0 0x10) 0xE09E).stop = some (.fault .keyIndex) := by decide

theorem test_K4_K5_sknp :
    (run1 (rc.setV 4 7) 0xE4A1).pc = 0x304 ∧ (run1 (key7 .smooth) 0xE4A1).pc = 0x302 ∧
    (run1 (key7 .smooth) 0xE4A1).key 7 = false := by decide

theorem test_K8_wait : (run1 rc 0xF30A).pc = 0x300 ∧ (run1 rc 0xF30A).getV 3 = 0 := by decide

theorem test_K10_wait_lowest :
    (run1 { (rc.setKey 5 true).setKey 9 true with policy := .smooth } 0xF30A).getV 3 = 5 ∧
    (run1 { (rc.setKey 5 true).setKey 9 true with policy := .smooth } 0xF30A).key 5 = false ∧
    (run1 { (rc.setKey 5 true).setKey 9 true with policy := .smooth } 0xF30A).key 9 = true := by decide

theorem test_K12_read_dt : (run1 (rc.setDT 0x3C) 0xF507).getV 5 = 0x3C := by decide
theorem test_K13_set_dt : (run1 (rc.setV 5 0x3C) 0xF515).dt = 0x3C := by decide
theorem test_K14_set_st : (run1 (rc.setV 6 2) 0xF618).st = 2 ∧ (run1 (rc.setV 6 2) 0xF618).sound = true := by decide

theorem test_K16_ticks :
    ({ rc with dt := 3, st := 2, cpu := .stopped }.runSchedule [.tick, .tick, .tick]).dt = 0 ∧
    ({ rc with dt := 3, st := 2, cpu := .stopped }.runSchedule [.tick, .tick, .tick]).sound = false := by decide

/-! ## Super-CHIP (vectors X1 to X18) -/

/-- Pixel (5,3) set. -/
def dot : State := { ext with gfx := Screen.flip ext.gfx 5 3 }

theorem test_X1_scu :
    Screen.pixel (run1 dot 0x00B2).gfx 3 3 = true ∧ Screen.pixel (run1 dot 0x00B2).gfx 5 3 = false := by decide

theorem test_X3_scd :
    Screen.pixel (run1 dot 0x00C2).gfx 7 3 = true ∧ Screen.pixel (run1 dot 0x00C2).gfx 5 3 = false := by decide

theorem test_X5_scr :
    Screen.pixel (run1 { ext with gfx := Screen.flip ext.gfx 0 0 } 0x00FB).gfx 0 4 = true ∧
    Screen.pixel (run1 { ext with gfx := Screen.flip ext.gfx 0 61 } 0x00FB).gfx 0 1 = false := by decide

theorem test_X6_scl :
    Screen.pixel (run1 { ext with gfx := Screen.flip ext.gfx 0 4 } 0x00FC).gfx 0 0 = true ∧
    Screen.pixel (run1 { ext with gfx := Screen.flip ext.gfx 0 2 } 0x00FC).gfx 0 62 = false := by decide

theorem test_X8_low_in_low : Screen.pixel (run1 dot 0x00FE).gfx 5 3 = true ∧ (run1 dot 0x00FE).res = .low := by decide
theorem test_high : (run1 dot 0x00FF).res = .high ∧ (run1 dot 0x00FF).gfx.length = 64 := by decide

/-- `V0 = 124`, high resolution, the sprite of vector X10 at 0x300, `PC = 0x200`. -/
def x10 : State :=
  State.writeBytes { withI (ext.setV 0 124) 0x300 with res := .high, gfx := Screen.blank 128 64 } 0x300 [0xFF, 0xFF]

set_option maxRecDepth 4000 in
theorem test_X10_drw16 :
    Screen.pixel (run1 x10 0xD010).gfx 0 127 = true ∧ Screen.pixel (run1 x10 0xD010).gfx 0 11 = true ∧
    Screen.pixel (run1 x10 0xD010).gfx 0 12 = false := by decide

theorem test_X11_drw16_out_of_range : (run1 (withI ext 0xFE1) 0xD010).stop = some (.fault .memOutOfRange) := by
  decide

theorem test_X13_X14_ld_hf : (run1 (ext.setV 0 0xF) 0xF030).i = 0x0E6 ∧ (run1 (ext.setV 0 0xFF) 0xF030).i = 0xA46 := by
  decide

theorem test_X15_X16_ld_r_store :
    (run1 (withV ext 1 2 0) 0xF175).flags[1] = 2 ∧ (run1 ext 0xF875).stop = some (.fault .flagIndex) := by decide

theorem test_X17_X18_ld_r_load :
    (run1 { ext with flags := (ext.flags.set 0 9).set 1 8 } 0xF185).getV 1 = 8 ∧
    (run1 ext 0xFF85).stop = some (.fault .flagIndex) := by decide

/-! ## Reset and load (vectors R1, R4) -/

theorem test_R1_reset :
    ({ key7 .smooth with cpu := .stopped, pc := 0x333 }.after .reset).pc = 0x200 ∧
    ({ key7 .smooth with cpu := .stopped, pc := 0x333 }.after .reset).key 7 = true ∧
    ({ key7 .smooth with cpu := .stopped, pc := 0x333 }.after .reset).policy = .smooth := by decide

theorem test_R4_empty_image :
    (rc.runSchedule (boot [] ++ [.step])).stop = some .unknownOpcode ∧ (rc.runSchedule (boot [] ++ [.step])).pc = 0x202 := by
  decide

theorem test_placed_word_runs : (run1 State.reset 0x6A02).getV 10 = 2 ∧ (run1 State.reset 0x6A02).pc = 0x202 := by decide

/-! ## Witnesses: states and operands that meet the hypotheses of the statements, at the ends of their ranges -/

/-- What an instruction leaves. -/
def after (i : Instr) (s : State) : State :=
  match exec i s with
  | .next t => t
  | .fault _ => s
  | .refused _ => s

theorem witness_DecodeOfEncodeIsTheInstruction :
    WellFormed true (.drw 15 15 1) = true ∧ WellFormed true (.drw16 0 0) = true ∧
    WellFormed false (.drw 0 0 0) = true ∧ WellFormed false (.jp 0xFFF) = true := by decide

theorem witness_EncodeOfDecodeIsTheWord :
    decodeWord true 0xD120 = some (.drw16 1 2) ∧ decodeWord false 0xD120 = some (.drw 1 2 0) ∧
    decodeWord true 0xFF85 = some (.ldRLoad 15) := by decide

theorem witness_OnlyTheDrawRowsShareAWord :
    (opcodeRows.filter fun r => rowMatches r 0xD120).map Row.mnemonic = ["DRW16", "DRW"] := by decide

theorem witness_DecodingAlwaysTakesTwoBytes :
    decode true [0x60, 1, 2] = .ok (.ldImm 0 1, [2]) ∧ decode false [0x60, 1] = .ok (.ldImm 0 1, []) := by decide

/-- The word 0x6011 in the last two bytes of `RAM`, `PC` at it. -/
def lastWord : State := { rc with pc := 0xFFE }.placeWord 0x6011

theorem witness_StepRunsTheDecodedInstruction :
    lastWord.cpu = .running ∧ lastWord.pc.toNat + 1 = 0xFFF ∧
    decode lastWord.cfg.ext [lastWord.readMem lastWord.pc.toNat, lastWord.readMem (lastWord.pc.toNat + 1)] =
      .ok (.ldImm 0 0x11, []) := by decide

theorem witness_FetchedWordIsLatched :
    lastWord.cpu = .running ∧ lastWord.pc.toNat + 1 = 0xFFF ∧ ∃ t, step lastWord = .next t :=
  ⟨rfl, rfl, _, rfl⟩

theorem witness_OnlyResetLeavesStopped :
    ({ rc with cpu := .stopped, stop := some .unknownOpcode } : State).cpu = .stopped ∧
    Command.step ≠ .reset ∧ Command.load [0x60, 0x11] ≠ .reset := by decide

theorem witness_FetchOutOfRangeStopsInPlace :
    ({ rc with pc := 0xFFF } : State).cpu = .running ∧ 0xFFF < ({ rc with pc := 0xFFF } : State).pc.toNat + 1 ∧
    0xFFF < ({ rc with pc := 0x10FE } : State).pc.toNat + 1 := by decide

theorem witness_UnknownWordStopsTheCore :
    (rc.placeWord 0x0123).cpu = .running ∧ (rc.placeWord 0x0123).pc.toNat + 1 ≤ 0xFFF ∧
    Claims.unknownWord false (Claims.wordAtPC (rc.placeWord 0x0123)) = true ∧
    Claims.unknownWord false (Claims.wordAtPC (rc.placeWord 0x00FB)) = true ∧
    Claims.unknownWord true (Claims.wordAtPC (ext.placeWord 0x00FB)) = false ∧
    Claims.unknownWord true (Claims.wordAtPC (ext.placeWord 0xFFFF)) = true := by decide

/-- `V0 = 0xFF`. -/
def v0Full : State := rc.setV 0 0xFF

theorem witness_PcAfterEveryInstruction :
    (∃ t, exec (.jpV0 0xFFF) v0Full = .next t ∧ t.cpu = .running) ∧
    (∃ t, exec .ret { rc with sp := 16 } = .next t ∧ t.cpu = .running) ∧
    (∃ t, exec (.ldK 0) rc = .next t ∧ t.cpu = .running) :=
  ⟨⟨_, rfl, rfl⟩, ⟨_, rfl, rfl⟩, ⟨_, rfl, rfl⟩⟩

theorem witness_StepsDoNotCountTheTimers :
    (∃ t, step ((rc.setV 5 1).placeWord 0xF515) = .next t) ∧ (run1 (rc.setV 5 1) 0xF515).dt ≠ rc.dt ∧
    (∃ t, step ((rc.setV 5 1).placeWord 0xF518) = .next t) ∧ (run1 (rc.setV 5 1) 0xF518).st ≠ rc.st :=
  ⟨⟨_, rfl⟩, by decide, ⟨_, rfl⟩, by decide⟩

theorem witness_StopsArePrecise :
    rc.cpu = .running ∧ rc.stop = none ∧
    (∃ t, exec .ret rc = .next t ∧ t.cpu = .stopped) ∧
    ∃ t, exec (.ldB 0) (rc.setI 0xFFE) = .next t ∧ t.stop ≠ none :=
  ⟨rfl, rfl, ⟨_, rfl, rfl⟩, _, rfl, by decide⟩

/-! Each clause of the table of faults, on both sides of its boundary. -/

theorem witness_FaultsAreThoseOfTheTable :
    rc.stop = none ∧ (∃ t, exec .ret rc = .next t) := ⟨rfl, _, rfl⟩

theorem witness_faults_of_sprites :
    (after (.drw 0 0 0) (rc.setI 0xFFF)).stop = none ∧ (after (.drw 0 0 1) (rc.setI 0xFFF)).stop = none ∧
    (after (.drw 0 0 2) (rc.setI 0xFFF)).stop = some (.fault .memOutOfRange) ∧
    (after (.drw16 0 0) (rc.setI 0xFE1)).stop = some (.fault .memOutOfRange) ∧
    Claims.faultOf (.drw16 0 0) (rc.setI 0xFE0) = none := by decide

theorem witness_faults_of_transfers :
    (after (.ldB 0) (rc.setI 0xFFD)).stop = none ∧
    (after (.ldB 0) (rc.setI 0xFFE)).stop = some (.fault .memOutOfRange) ∧
    (after (.ldMemStore 1) (rc.setI 0xFFE)).stop = none ∧
    (after (.ldMemLoad 1) (rc.setI 0xFFF)).stop = some (.fault .memOutOfRange) ∧
    (after (.ldMemLoad 1) { rc.setI 0xFFD with cfg := xPlusOne }).stop = none ∧
    (after (.ldMemLoad 1) { rc.setI 0xFFE with cfg := xPlusOne }).stop = some (.fault .indexOverflow) ∧
    (after (.ldMemStore 1) { rc.setI 0xFFF with cfg := xPlusOne }).stop = some (.fault .memOutOfRange) := by decide

theorem witness_faults_of_stack_and_index :
    (after (.addI 0) (v0Full.setI 0xF00)).stop = none ∧
    (after (.addI 0) (v0Full.setI 0xF01)).stop = some (.fault .indexOverflow) ∧
    (after (.call 0) { rc with sp := 15 }).stop = none ∧
    (after (.call 0) { rc with sp := 16 }).stop = some (.fault .stackOverflow) ∧
    (after .ret { rc with sp := 1 }).stop = none ∧
    (after .ret { rc with sp := 0 }).stop = some (.fault .stackUnderflow) := by decide

theorem witness_faults_of_keys_and_flags :
    (after (.skp 0) (rc.setV 0 15)).stop = none ∧ (after (.skp 0) (rc.setV 0 16)).stop = some (.fault .keyIndex) ∧
    (after (.sknp 0) (rc.setV 0 15)).stop = none ∧ (after (.sknp 0) (rc.setV 0 16)).stop = some (.fault .keyIndex) ∧
    (after (.ldRStore 7) rc).stop = none ∧ (after (.ldRStore 8) rc).stop = some (.fault .flagIndex) ∧
    (after (.ldRLoad 7) rc).stop = none ∧ (after (.ldRLoad 8) rc).stop = some (.fault .flagIndex) := by decide

theorem witness_StepKeepsRamCanonical :
    (rc.placeWord 0xF255).RamCanonical ∧ (rc.placeWord 0xF255).ram.length = 2 ∧
    ∃ t, step (rc.placeWord 0xF255) = .next t :=
  ⟨by unfold State.RamCanonical; decide, by decide, _, rfl⟩

theorem witness_StepKeepsDisplayShaped :
    (rc.placeWord 0x00E0).DisplayShaped ∧ x10.DisplayShaped ∧ ∃ t, step (rc.placeWord 0x00E0) = .next t :=
  ⟨Screen.shaped_blank 64 32, Screen.shaped_blank 128 64, _, rfl⟩

/-- `PC` and the stack entries as high as they can be, the stack full. -/
def highest : State := { rc with pc := 0x10FE, stack := Vector.replicate 16 0x1000, sp := 16 }

theorem witness_StepKeepsPcBounded : highest.PcBounded ∧ rc.PcBounded ∧ ∃ t, step highest = .next t := by
  refine ⟨?_, ?_, _, rfl⟩ <;> unfold State.PcBounded <;> decide

theorem witness_StepKeepsTheStopRecordAndTheBuild :
    rc.StopRecorded ∧ rc.BaseBuildPlain ∧ (∃ t, step rc = .next t) ∧
    ({ rc with cpu := .stopped, stop := some .unknownOpcode } : State).StopRecorded := by
  refine ⟨?_, ?_, ⟨_, rfl⟩, ?_⟩ <;> simp [State.StopRecorded, State.BaseBuildPlain, rc, State.construct]

theorem witness_EveryCommandKeepsTheInvariants : rc.Inv where
  ram := by unfold State.RamCanonical; decide
  display := Screen.shaped_blank 64 32
  stop := by simp [State.StopRecorded, rc, State.construct]
  pc := by unfold State.PcBounded; decide
  base := by simp [State.BaseBuildPlain, rc, State.construct]

theorem witness_OnlyStoresChangeMemory :
    (∃ t, exec (.ldB 0) rc = .next t) ∧ ¬ Claims.storesAt (.ldB 0) rc 3 ∧
    (∃ t, exec (.ldMemStore 1) rc = .next t) ∧ ¬ Claims.storesAt (.ldMemStore 1) rc 2 ∧
    (∃ t, exec .cls rc = .next t) ∧ ¬ Claims.storesAt .cls rc 0 := by
  refine ⟨⟨_, rfl⟩, ?_, ⟨_, rfl⟩, ?_, ⟨_, rfl⟩, id⟩ <;> simp [Claims.storesAt, State.dataAddr, rc, State.construct]

theorem witness_RegistersHaveOnlyTheirNamedWriters :
    (∃ t, exec (.addReg 0 1) rc = .next t) ∧ ¬ Claims.mayWrite (.addReg 0 1) 14 ∧
    (∃ t, exec (.ldMemLoad 2) rc = .next t) ∧ ¬ Claims.mayWrite (.ldMemLoad 2) 3 ∧
    (∃ t, exec .cls rc = .next t) ∧ ¬ Claims.mayWrite .cls 15 := by
  refine ⟨⟨_, rfl⟩, ?_, ⟨_, rfl⟩, ?_, ⟨_, rfl⟩, id⟩ <;> simp [Claims.mayWrite]

/-- One next state for each clause, in which the element does change. -/
theorem witness_SpecialStateHasOnlyItsNamedWriters :
    (∃ t, exec (.call 0) rc = .next t) ∧
    (after (.ldI 5) rc).i ≠ rc.i ∧ (after (.call 0) rc).stack ≠ rc.stack ∧ (after (.call 0) rc).sp ≠ rc.sp ∧
    (after (.ldDT 0) v0Full).dt ≠ v0Full.dt ∧ (after (.ldST 0) v0Full).st ≠ v0Full.st ∧
    (after .high rc).res ≠ rc.res ∧ (after (.ldRStore 0) v0Full).flags ≠ v0Full.flags ∧
    (after (.skp 4) (key7 .smooth)).keys ≠ (key7 .smooth).keys ∧ (after (.rnd 0 0) rc).draws ≠ rc.draws :=
  ⟨⟨_, rfl⟩, by decide, by decide, by decide, by decide, by decide, by decide, by decide, by decide,
    Nat.succ_ne_self 0⟩

theorem witness_special_state_gfx : (after (.drw 0 0 1) rc).gfx ≠ rc.gfx := by
  intro h
  have := congrArg (fun g => Screen.pixel g 0 0) h
  revert this
  decide

theorem witness_CallPushesTheReturnAddress :
    ({ rc with sp := 15 } : State).sp.val ≤ 15 ∧ rc.sp.val ≤ 15 ∧ ({ rc with sp := 16 } : State).sp = 16 := by decide

theorem witness_ReturnTakesTheNewestEntry :
    1 ≤ ({ rc with sp := 1 } : State).sp.val ∧ 1 ≤ ({ rc with sp := 16 } : State).sp.val ∧ rc.sp = 0 := by decide

theorem witness_CallThenReturnComesBack :
    ({ rc with sp := 15 } : State).sp.val ≤ 15 ∧ ∃ t u : State, exec (.call 0x400) { rc with sp := 15 } = .next t ∧
      u.sp = t.sp ∧ (∀ j, j < t.sp.val → u.stack[j]? = t.stack[j]?) ∧ u.pc ≠ t.pc :=
  ⟨by decide, _, (after (.call 0x400) { rc with sp := 15 }).setPC 0x410, rfl, rfl, fun _ _ => rfl, by decide⟩

theorem witness_ShiftsWriteResultThenTheBitShiftedOut :
    0x81 = (if rc.cfg.shiftSrc = .x then (withV rc 0x81 0x40 0).getV 0 else (withV rc 0x81 0x40 0).getV 1).toNat ∧
    ({ referenceBuild with shiftSrc := .y } : Config).shiftSrc ≠ .x := by decide

theorem witness_RandomByteIsADrawUnderTheMask : ∃ kk : Byte, kk = 0 := ⟨0, rfl⟩

theorem witness_AddToIndexIsExactOrStops :
    (v0Full.setI 0xF00).i.toNat + ((v0Full.setI 0xF00).getV 0).toNat = 0xFFF ∧
    0xFFF < (v0Full.setI 0xF01).i.toNat + ((v0Full.setI 0xF01).getV 0).toNat := by decide

theorem witness_DecimalDigitsGoToThreeAddresses :
    (rc.setI 0xFFD).i.toNat ≤ 0xFFD ∧ 0xFFD < (rc.setI 0xFFE).i.toNat := by decide

theorem witness_BlockStoreWritesTheRegisters :
    Claims.faultOf (.ldMemStore 15) (rc.setI 0xFF0) = none ∧
    Claims.faultOf (.ldMemStore 15) { rc.setI 0xFEF with cfg := xPlusOne } = none ∧
    0xFFF < (rc.setI 0xFF1).i.toNat + (15 : Reg).val ∧
    ({ rc.setI 0xFF0 with cfg := xPlusOne } : State).i.toNat + (15 : Reg).val = 0xFFF ∧
    xPlusOne.lsIInc = .xPlusOne := by decide

theorem witness_BlockLoadFillsTheRegisters :
    Claims.faultOf (.ldMemLoad 0) (rc.setI 0xFFF) = none ∧
    Claims.faultOf (.ldMemLoad 0) { rc.setI 0xFFE with cfg := xPlusOne } = none ∧
    0xFFF < (rc.setI 0xFFF).i.toNat + (1 : Reg).val ∧
    ({ rc.setI 0xFFF with cfg := xPlusOne } : State).i.toNat + (0 : Reg).val = 0xFFF := by decide

theorem witness_SpriteXorIsPointwise :
    (64 : Nat) ≤ 64 ∧ (List.replicate 32 (1 : BitVec 64)).length ≤ 32 ∧ Screen.shaped 64 32 (Screen.blank 64 32) :=
  ⟨le_refl _, by simp, Screen.shaped_blank 64 32⟩

theorem witness_DrawsXorTheSpriteAndReportCollision :
    (rc.setI 0xFF1).DisplayShaped ∧ (rc.setI 0xFF1).i.toNat + (15 : Count).val = 4096 ∧
    (rc.setI 0xFFF).i.toNat + (1 : Count).val = 4096 ∧ (rc.setI 0xFE0).i.toNat ≤ 0xFE0 ∧
    (2 : Count) ≠ 0 ∧ 0xFFF < (rc.setI 0xFFF).i.toNat + (2 : Count).val - 1 ∧ 0xFE0 < (rc.setI 0xFE1).i.toNat :=
  ⟨Screen.shaped_blank 64 32, by decide, by decide, by decide, by decide, by decide, by decide⟩

theorem witness_DrawingTwiceRestoresTheBuffer :
    (0 : Reg) ≠ 15 ∧ (14 : Reg) ≠ 15 ∧ (rc.setI 0xFF1).DisplayShaped ∧
    (rc.setI 0xFF1).i.toNat + (15 : Count).val ≤ 4096 :=
  ⟨by decide, by decide, Screen.shaped_blank 64 32, by decide⟩

theorem witness_KeySkipsReadAndConsumeTheKey :
    15 = ((rc.setV 0 15).getV 0).toNat ∧ (15 : Nat) ≤ 15 ∧ 16 = ((rc.setV 0 16).getV 0).toNat ∧ 15 < 16 := by decide

theorem witness_KeyWaitTakesTheLowestKeyOrRetries :
    (∀ k < 16, rc.key k = false) ∧ (rc.setKey 15 true).key 15 = true ∧
    (∀ j < 15, (rc.setKey 15 true).key j = false) ∧ (rc.setKey 0 true).key 0 = true := by decide

theorem witness_ResolutionSwitchesRescaleTheBuffer : rc.res = .low ∧ x10.res = .high := ⟨rfl, rfl⟩

theorem witness_FlagStorageSavesAndRestores : (7 : Reg).val ≤ 7 ∧ 7 < (8 : Reg).val := by decide

theorem witness_ResetGivesEveryElementItsResetValue : 79 < 80 ∧ 159 < 160 ∧ 0xF0 ≤ 0xF0 ∧ 15 < 16 ∧ 7 < 8 := by
  decide

theorem witness_LoadWritesTheImageOrIsRefused :
    (List.replicate 3584 (0xFF : Byte)).length ≤ 3584 ∧ 3584 < (List.replicate 3585 (0xFF : Byte)).length := by
  rw [List.length_replicate, List.length_replicate]; decide

theorem witness_FramebufferIsRowMajor :
    rc.DisplayShaped ∧ x10.DisplayShaped ∧ 31 < rc.res.height ∧ 63 < rc.res.width ∧ 63 < x10.res.height ∧
    127 < x10.res.width :=
  ⟨Screen.shaped_blank 64 32, Screen.shaped_blank 128 64, by decide, by decide, by decide, by decide⟩

theorem witness_PlacedWordIsTheNextInstruction :
    ext.cfg.ext = true ∧ decodeTableWord 16 0xD120 = some (.drw16 1 2) ∧ State.reset.cfg.ext = true :=
  ⟨rfl, by decide, rfl⟩

end Sys2Proof.Tests
end

/-! PROOFS. The fields of a word and the length of an instruction (30_encoding.md R70, R71). -/

namespace Sys2Proof

/-! ## The bit fields of a word -/

/-- Nibble `k` in the words of 30_encoding.md R71: shifted down and masked. -/
theorem nibble_val_eq_and (w : Word) (k : Nat) : (nibble w k).val = ((w >>> (4 * k)) &&& 0xF).toNat := by
  rw [nibble_val, BitVec.toNat_and, BitVec.toNat_ushiftRight, Nat.shiftRight_eq_div_pow]
  exact (Nat.and_two_pow_sub_one_eq_mod _ 4).symm

theorem toNat_fieldsOf_nnn (w : Word) : (fieldsOf w).nnn.toNat = (w &&& 0xFFF).toNat := by
  rw [BitVec.toNat_and]
  exact (Nat.and_two_pow_sub_one_eq_mod w.toNat 12).symm

theorem toNat_fieldsOf_kk (w : Word) : (fieldsOf w).kk.toNat = (w &&& 0xFF).toNat := by
  rw [BitVec.toNat_and]
  exact (Nat.and_two_pow_sub_one_eq_mod w.toNat 8).symm

/-- Settles O6: `c`, `x`, `y` and `n` are the nibbles 3, 2, 1 and 0; `nnn` and `kk` are truncations. -/
theorem fieldsAreTheBitFieldsOfTheWord : Obligations.FieldsAreTheBitFieldsOfTheWord := by
  intro w
  have hn : (fieldsOf w).n.val = (w &&& 0xF).toNat := by
    have h := nibble_val_eq_and w 0
    rwa [Nat.mul_zero, BitVec.ushiftRight_zero] at h
  exact ⟨nibble_val_eq_and w 3, nibble_val_eq_and w 2, nibble_val_eq_and w 1, hn,
    toNat_fieldsOf_nnn w, toNat_fieldsOf_kk w⟩

/-! ## The length of an instruction -/

theorem wordOfBytes_eq_ofNat (hi lo : Byte) :
    wordOfBytes hi lo = BitVec.ofNat 16 (hi.toNat * 256 + lo.toNat) := by
  rw [← toNat_wordOfBytes, BitVec.ofNat_toNat, BitVec.setWidth_eq]

/-- Decoding succeeds exactly on two bytes whose word decodes, and leaves the bytes after them. -/
theorem decode_eq_ok_iff {ext : Bool} {bytes : List Byte} {i : Instr} {rest : List Byte} :
    decode ext bytes = .ok (i, rest) ↔
      ∃ hi lo, bytes = hi :: lo :: rest ∧ decodeWord ext (wordOfBytes hi lo) = some i := by
  constructor
  · intro h
    match bytes with
    | [] | [_] => simp [decode] at h
    | hi :: lo :: tail =>
      cases hd : decodeWord ext (wordOfBytes hi lo) with
      | none => simp [decode, hd] at h
      | some j =>
        obtain ⟨rfl, rfl⟩ : j = i ∧ tail = rest := by simpa [decode, hd] using h
        exact ⟨hi, lo, rfl, hd⟩
  · rintro ⟨hi, lo, rfl, hd⟩
    simp [decode, hd]

/-- Settles O7: the reading of `decode_eq_ok_iff` from left to right, with the word as the sum of its bytes. -/
theorem decodingAlwaysTakesTwoBytes : Obligations.DecodingAlwaysTakesTwoBytes := by
  intro ext bytes i rest h
  obtain ⟨hi, lo, hbytes, hword⟩ := decode_eq_ok_iff.mp h
  exact ⟨hi, lo, hbytes, wordOfBytes_eq_ofNat hi lo ▸ hword⟩

end Sys2Proof

/-! PROOFS. A word of 30_encoding.md R76's list matches no enabled row of the opcode map, so it decodes to nothing. -/

namespace Sys2Proof

/-! ## A word from its nibbles -/

theorem toNat_div_4096 (w : Word) : w.toNat / 4096 = (nibble w 3).val := by
  have := w.isLt
  rw [nibble_val]; omega

theorem toNat_mod_16 (w : Word) : w.toNat % 16 = (nibble w 0).val := by
  rw [nibble_val]; omega

theorem toNat_mod_256 (w : Word) : w.toNat % 256 = (nibble w 1).val * 16 + (nibble w 0).val := by
  rw [nibble_val, nibble_val]; omega

theorem toNat_eq_nibbles (w : Word) : w.toNat =
    (nibble w 3).val * 4096 + (nibble w 2).val * 256 + (nibble w 1).val * 16 + (nibble w 0).val := by
  have := w.isLt
  simp only [nibble_val]; omega

/-! ## Matching a row -/

@[simp] theorem nibbleFits_none (d : Fin 16) : nibbleFits none d = true := rfl

@[simp] theorem nibbleFits_some (q d : Fin 16) : nibbleFits (some q) d = true ↔ d = q := by simp [nibbleFits]

theorem rowMatches_iff {r : Row} {w : Word} : rowMatches r w = true ↔
    nibbleFits r.p3 (nibble w 3) = true ∧ nibbleFits r.p2 (nibble w 2) = true ∧
      nibbleFits r.p1 (nibble w 1) = true ∧ nibbleFits r.p0 (nibble w 0) = true := by
  simp [rowMatches, and_assoc]

theorem decodeWord_eq_none_iff {ext : Bool} {w : Word} : decodeWord ext w = none ↔
    ∀ r ∈ opcodeRows, (ext || !r.ext) = true → rowMatches r w = false := by
  simp [decodeWord, decodeRow]

/-! ## The unknown words -/

/-- In a build that enables the row, no word it matches is on R76's list. -/
def Row.MatchesKnownWords (r : Row) : Prop :=
  ∀ (ext : Bool) (w : Word), (ext || !r.ext) = true → rowMatches r w = true →
    Claims.unknownWord ext w.toNat = false

/-- The words of the eight rows of class 0: six single words, and the two scrolls with their count. -/
theorem unknownWord_class0 :
    (∀ ext, Claims.unknownWord ext 0xE0 = false ∧ Claims.unknownWord ext 0xEE = false) ∧
    Claims.unknownWord true 0xFB = false ∧ Claims.unknownWord true 0xFC = false ∧
    Claims.unknownWord true 0xFE = false ∧ Claims.unknownWord true 0xFF = false ∧
    ∀ n : Fin 16, Claims.unknownWord true (0xB0 + n) = false ∧ Claims.unknownWord true (0xC0 + n) = false := by
  decide

/-- The patterns of class 0 fix every nibble but the count of a scroll. -/
theorem matchesKnownWords_class0 : ∀ r ∈ rowsClass0, r.MatchesKnownWords := by
  simp only [rowsClass0, List.forall_mem_cons, Row.MatchesKnownWords, rowMatches_iff, nibbleFits_some,
    nibbleFits_none]
  simp +contextual [toNat_eq_nibbles, unknownWord_class0]

/-- In the other classes R76 looks at the class digit and the low one or two nibbles, which the patterns fix. -/
theorem matchesKnownWords_class1ToF :
    ∀ r ∈ rowsClass1To7 ++ rowsClass8 ++ rowsClass9ToE ++ rowsClassF, r.MatchesKnownWords := by
  simp only [rowsClass1To7, rowsClass8, rowsClass9ToE, rowsClassF, List.forall_mem_append, List.forall_mem_cons,
    Row.MatchesKnownWords, rowMatches_iff, nibbleFits_some, nibbleFits_none]
  simp +contextual [Claims.unknownWord, toNat_div_4096, toNat_mod_16, toNat_mod_256]

theorem matchesKnownWords_of_mem {r : Row} (h : r ∈ opcodeRows) : r.MatchesKnownWords := by
  simp only [opcodeRows, List.append_assoc, List.mem_append] at h
  obtain h | h := h
  · exact matchesKnownWords_class0 r h
  · exact matchesKnownWords_class1ToF r (by simpa [or_assoc] using h)

theorem decodeWord_eq_none_of_unknownWord {ext : Bool} {w : Word}
    (h : Claims.unknownWord ext w.toNat = true) : decodeWord ext w = none := by
  refine decodeWord_eq_none_iff.mpr fun r hr hext => ?_
  by_contra hm
  have := matchesKnownWords_of_mem hr ext w hext (by simpa using hm)
  simp [h] at this

end Sys2Proof

/-! PROOFS. What one step latches, when it stops on the word it fetched, and what it leaves of `DT` and `ST`
(40_cycle.md R92 to R95, R99). -/

namespace Sys2Proof.Machine

/-! ## Every next state of a result -/

/-- Every next state a result answers meets `P`. -/
def Answers (P : State → Prop) (r : Result) : Prop := ∀ t, r = .next t → P t

theorem Answers.next {P : State → Prop} {u : State} (h : P u) : Answers P (.next u) := by
  rintro t ⟨⟩
  exact h

/-- A checked result meets `P` when the stop does and the rest does (40_cycle.md R97). -/
theorem Answers.check {P : State → Prop} {c : Bool} {f : Fault} {s : State} {body : Result}
    (hstop : P (s.halt (.fault f))) (hbody : Answers P body) : Answers P (check c f s body) := by
  intro t h
  obtain ⟨-, h⟩ | ⟨-, rfl⟩ := check_eq_next.mp h
  · exact hbody t h
  · exact hstop

/-! ## What the execute phase leaves of `OP`, `DT` and `ST` -/

/-- From `s` to `t` an instruction keeps `OP`, keeps `DT` unless it is FX15, and keeps `ST` unless it is FX18. -/
structure LatchAndTimerFrame (i : Instr) (s t : State) : Prop where
  op : t.op = s.op
  dt : t.dt = s.dt ∨ ∃ x, i = .ldDT x
  st : t.st = s.st ∨ ∃ x, i = .ldST x

theorem LatchAndTimerFrame.of_eq {i : Instr} {s t : State} (hop : t.op = s.op) (hdt : t.dt = s.dt)
    (hst : t.st = s.st) : LatchAndTimerFrame i s t := ⟨hop, .inl hdt, .inl hst⟩

theorem LatchAndTimerFrame.halt (i : Instr) (s : State) (k : StopKind) : LatchAndTimerFrame i s (s.halt k) :=
  .of_eq rfl rfl rfl

/-- EX9E and EXA1 may consume a key and pass over a word. -/
theorem State.skipOnKey_latchAndTimerFrame (i : Instr) (s : State) (x : Reg) (wanted : Bool) :
    Answers (LatchAndTimerFrame i s) (s.skipOnKey x wanted) := by
  refine .check (.halt i s _) (.next ?_)
  cases s.key (s.getV x).toNat <;> exact .of_eq (by simp) (by simp) (by simp)

/-- The instructions by the kind of write: one update that names none of the three, a checked one, a skip, a switch of
the resolution, the keypad, a transfer that may advance `I`, and the two writers of the timers. -/
theorem exec_latchAndTimerFrame (i : Instr) (s : State) : Answers (LatchAndTimerFrame i s) (exec i s) := by
  cases i with
  | cls | scr | scl | scu | scd | jp | jpV0 | ldImm | addImm | ldReg | orReg | andReg | xorReg | addReg | sub | shr
  | subn | shl | rnd | ldI | ldF | ldHF | ldVxDT => exact .next (.of_eq rfl rfl rfl)
  | ret | call | drw | drw16 | addI | ldRStore | ldRLoad => exact .check (.halt _ s _) (.next (.of_eq rfl rfl rfl))
  | seImm | sneImm | seReg | sneReg =>
    exact .next (.of_eq (s.skipIf_op _) (s.skipIf_dt _) (s.skipIf_st _))
  | low | high =>
    simp only [exec, execLow, execHigh]
    cases s.res <;> exact .next (.of_eq rfl rfl rfl)
  | skp x => exact s.skipOnKey_latchAndTimerFrame _ x true
  | sknp x => exact s.skipOnKey_latchAndTimerFrame _ x false
  | ldK x =>
    simp only [exec, execLdK]
    cases s.pressedKey with
    | none => exact .next (.of_eq rfl rfl rfl)
    | some k => exact .next (.of_eq (by simp) (by simp) (by simp))
  | ldB => exact .check (.halt _ s _) (.next (.of_eq (by simp) (by simp) (by simp)))
  | ldMemStore | ldMemLoad =>
    exact .check (.halt _ s _) (.check (.halt _ s _) (.next (.of_eq (by simp) (by simp) (by simp))))
  | ldDT x => exact .next ⟨rfl, .inr ⟨x, rfl⟩, .inl rfl⟩
  | ldST x => exact .next ⟨rfl, .inl rfl, .inr ⟨x, rfl⟩⟩

/-! ## The fetched word -/

theorem State.fetchable_iff (s : State) : s.fetchable = true ↔ s.pc.toNat + 1 ≤ 0xFFF := by simp [State.fetchable]

theorem State.toNat_fetchedWord (s : State) : s.fetchedWord.toNat = Claims.wordAtPC s := toNat_wordOfBytes _ _

theorem State.fetchedWord_eq_ofNat (s : State) : s.fetchedWord = BitVec.ofNat 16 (Claims.wordAtPC s) :=
  wordOfBytes_eq_ofNat _ _

/-- The step on a word that decodes to nothing (40_cycle.md R95). -/
theorem step_of_unknown {s : State} (hc : s.cpu = .running) (hf : s.fetchable = true)
    (hd : decodeWord s.cfg.ext s.fetchedWord = none) :
    step s = .next ((s.latch s.fetchedWord).halt .unknownOpcode) := by
  simp [step, hc, hf, runFetched, decode_fetchBytes, hd]

/-- Settles O9: the word is latched before it is decoded, and no instruction writes `OP`. -/
theorem fetchedWordIsLatched : Obligations.FetchedWordIsLatched := by
  intro s t hrun hpc h
  have hf : s.fetchable = true := s.fetchable_iff.mpr hpc
  suffices t.op = s.fetchedWord by rw [this, s.toNat_fetchedWord]
  obtain ⟨hc, -⟩ | ⟨-, hf', -⟩ | ⟨-, -, i, -, hexec⟩ | ⟨-, -, -, rfl⟩ := step_cases h
  · simp [hrun] at hc
  · simp [hf] at hf'
  · exact (exec_latchAndTimerFrame i _ t hexec).op
  · rfl

/-- Settles O12: the word decodes to nothing, and the stop of `step_of_unknown` is the state named. -/
theorem unknownWordStopsTheCore : Obligations.UnknownWordStopsTheCore := by
  intro s hrun hpc hunknown
  rw [← s.toNat_fetchedWord] at hunknown
  rw [step_of_unknown hrun (s.fetchable_iff.mpr hpc) (decodeWord_eq_none_of_unknownWord hunknown),
    ← s.fetchedWord_eq_ofNat]
  rfl

/-! ## The stopped core -/

theorem step_of_stopped {s : State} (h : s.cpu = .stopped) : step s = .next s := by simp [step, h]

/-- Loading an image, or its refusal, leaves `CPU` as it was (70_reset_and_hazards.md R282). -/
theorem State.after_load_cpu (s : State) (image : List Byte) : (s.after (.load image)).cpu = s.cpu := by
  simp only [State.after, State.command, State.load]
  split_ifs <;> simp

/-- Settles O10: the step by `step_of_stopped`, then one command after the other. -/
theorem onlyResetLeavesStopped : Obligations.OnlyResetLeavesStopped := by
  intro s hs
  refine ⟨step_of_stopped hs, fun c hc => ?_, rfl⟩
  cases c with
  | step => rwa [State.after_of_next (c := .step) (step_of_stopped hs)]
  | tick | keyDown | keyUp | clearKey | setPolicy => exact hs
  | load image => rwa [s.after_load_cpu]
  | reset => exact absurd rfl hc

/-! ## The timers -/

theorem decode_fetchBytes_of_decodeWord {s : State} {i : Instr}
    (h : decodeWord s.cfg.ext s.fetchedWord = some i) : decode s.cfg.ext s.fetchBytes = .ok (i, []) := by
  rw [decode_fetchBytes, h]

/-- Settles O15: only the execute phase can write a timer, and there only the two instructions named. -/
theorem stepsDoNotCountTheTimers : Obligations.StepsDoNotCountTheTimers := by
  intro s t h
  obtain ⟨-, rfl⟩ | ⟨-, -, rfl⟩ | ⟨-, -, i, hi, hexec⟩ | ⟨-, -, -, rfl⟩ := step_cases h
  · exact ⟨absurd rfl, absurd rfl⟩
  · exact ⟨absurd rfl, absurd rfl⟩
  · obtain ⟨-, hdt, hst⟩ := exec_latchAndTimerFrame i _ t hexec
    have hdec := decode_fetchBytes_of_decodeWord hi
    constructor
    · intro hne
      obtain ⟨x, rfl⟩ := hdt.resolve_left hne
      exact ⟨x, [], hdec⟩
    · intro hne
      obtain ⟨x, rfl⟩ := hst.resolve_left hne
      exact ⟨x, [], hdec⟩
  · exact ⟨absurd rfl, absurd rfl⟩

end Sys2Proof.Machine

/-! PROOFS. Decoding the word an instruction has, and JP (30_encoding.md R74, 41_flow.md R113). -/

namespace Sys2Proof

/-! ## The word of an instruction -/

/-- The row the search stops at is one of the map and matches. -/
theorem mem_and_rowMatches_of_decodeRow {ext : Bool} {w : Word} {r : Row} (h : decodeRow ext w = some r) :
    r ∈ opcodeRows ∧ rowMatches r w = true := by
  rw [decodeRow] at h
  have hfits := List.find?_some h
  simp only [Bool.and_eq_true] at hfits
  exact ⟨List.mem_of_find?_eq_some h, hfits.2⟩

/-- When every row that matches the word of `i` builds `i`, the word decodes to `i`: the row `i` has in the opcode map
keeps the search from failing, and the row it stops at matches. -/
theorem decodeWord_encodeWord_of_matches_build {ext : Bool} {i : Instr} (hown : Laws.OwnRow.Statement i)
    (hwf : WellFormed ext i = true)
    (hbuild : ∀ r ∈ opcodeRows, rowMatches r (encodeWord i) = true → r.build (fieldsOf (encodeWord i)) = i) :
    decodeWord ext (encodeWord i) = some i := by
  obtain ⟨own, hmem, hext, hmatch, -⟩ := hown
  cases hfind : decodeRow ext (encodeWord i) with
  | none =>
    have hno := decodeWord_eq_none_iff.mp (by rw [decodeWord, hfind, Option.map_none]) own hmem (hext ext hwf)
    exact absurd hmatch (by simp [hno])
  | some r =>
    obtain ⟨hr, hrm⟩ := mem_and_rowMatches_of_decodeRow hfind
    rw [decodeWord, hfind, Option.map_some, hbuild r hr hrm]

/-- JP is the one row of class 1. -/
theorem decodeWord_encodeWord_jp (ext : Bool) (nnn : Index) :
    decodeWord ext (encodeWord (.jp nnn)) = some (.jp nnn) := by
  refine decodeWord_encodeWord_of_matches_build (Laws.OwnRow.jp nnn) rfl ?_
  simp only [opcodeRows, rowsClass0, rowsClass1To7, rowsClass8, rowsClass9ToE, rowsClassF, List.forall_mem_append,
    List.forall_mem_cons, rowMatches_iff, nibbleFits_some]
  simp [encodeWord]

end Sys2Proof

namespace Sys2Proof.Machine

/-! ## JP -/

theorem absolute_eq_ofNat (nnn : Index) : absolute nnn = BitVec.ofNat 16 nnn.toNat :=
  BitVec.eq_of_toNat_eq (by simp [absolute])

theorem State.onlyPC_setPC (s : State) (a : Word) : Claims.OnlyPC s (s.setPC a) a := ⟨rfl, rfl, fun _ => rfl⟩

/-- Settles O27: the word is the one `encodeWord` gives JP, and the execute phase is one write of `PC`. -/
theorem jumpGoesToItsTarget : Obligations.JumpGoesToItsTarget := by
  intro ext nnn s
  refine ⟨decodeWord_encodeWord_jp ext nnn, s.setPC (absolute nnn), rfl, ?_⟩
  rw [← absolute_eq_ofNat]
  exact s.onlyPC_setPC (absolute nnn)

end Sys2Proof.Machine

/-! PROOFS. LD I (30_encoding.md R74, 43_index_memory.md R151). -/

namespace Sys2Proof

/-! ## The word of LD I -/

/-- LD I is the one row of class A. -/
theorem build_of_classA {r : Row} (hr : r ∈ opcodeRows) (hclass : nibbleFits r.p3 0xA = true) (f : Fields) :
    r.build f = .ldI f.nnn := by
  revert r
  simp [opcodeRows, rowsClass0, rowsClass1To7, rowsClass8, rowsClass9ToE, rowsClassF]

theorem decodeWord_encodeWord_ldI (ext : Bool) (nnn : Index) :
    decodeWord ext (encodeWord (.ldI nnn)) = some (.ldI nnn) := by
  refine decodeWord_encodeWord_of_matches_build (Laws.OwnRow.ldI nnn) rfl fun r hr hmatch => ?_
  obtain ⟨hclass, -⟩ := rowMatches_iff.mp hmatch
  rw [encodeWord, nibble_wordNNN_three] at hclass
  rw [build_of_classA hr hclass, encodeWord, fieldsOf_wordNNN_nnn]

end Sys2Proof

namespace Sys2Proof.Machine

/-! ## LD I -/

theorem State.onlyI_setI (s : State) (a : Index) : Claims.OnlyI s (s.setI a) a.toNat := ⟨rfl, rfl, fun _ => rfl⟩

/-- Settles O38: the word is the one `encodeWord` gives LD I, and the execute phase is one write of `I`. -/
theorem loadIndexSetsI : Obligations.LoadIndexSetsI := by
  intro ext nnn s
  exact ⟨decodeWord_encodeWord_ldI ext nnn, s.setI nnn, rfl, s.onlyI_setI nnn⟩

end Sys2Proof.Machine

/-! PROOFS. CLS (30_encoding.md R74, 44_display.md R170). -/

namespace Sys2Proof

/-! ## The word of CLS -/

/-- CLS is the first row of the opcode map and both builds enable it, so the search stops there. -/
theorem decodeRow_encodeWord_cls (ext : Bool) :
    decodeRow ext (encodeWord .cls) = some ⟨"CLS", some 0, some 0, some 0xE, some 0, false, fun _ => .cls⟩ := by
  have henabled : (ext || !false) = true := Bool.or_true ext
  refine List.find?_cons_of_pos ?_
  rw [henabled]
  rfl

theorem decodeWord_encodeWord_cls (ext : Bool) : decodeWord ext (encodeWord .cls) = some .cls := by
  rw [decodeWord, decodeRow_encodeWord_cls, Option.map_some]

theorem encodeWord_cls : encodeWord .cls = 0x00E0 := by decide

end Sys2Proof

namespace Sys2Proof.Machine

/-! ## CLS -/

/-- Writing `GFX` alone: what is left to show is the new buffer's shape and its pixels. -/
theorem State.onlyGfx_setGfx {s : State} {g : Pixels} {f : Nat → Nat → Bool}
    (hshape : Screen.shaped s.res.width s.res.height g)
    (hpixel : ∀ r c, r < s.res.height → c < s.res.width → Screen.pixel g r c = f r c) :
    Claims.OnlyGfx s (s.setGfx g) f :=
  ⟨hshape, hpixel, rfl, fun _ => rfl⟩

/-- Settles O44: 00E0 is the word of CLS, and the execute phase writes the blank buffer to `GFX`. -/
theorem clearScreenClearsEveryPixel : Obligations.ClearScreenClearsEveryPixel := by
  intro ext s
  refine ⟨encodeWord_cls ▸ decodeWord_encodeWord_cls ext, s.setGfx (Screen.blank s.res.width s.res.height), rfl, ?_⟩
  exact State.onlyGfx_setGfx (Screen.shaped_blank _ _) fun r c _ _ => Screen.pixel_blank _ _ r c

end Sys2Proof.Machine

/-! PROOFS. The sound output (60_exceptions.md R251). -/

namespace Sys2Proof.Machine

theorem State.sound_eq_true_iff (s : State) : s.sound = true ↔ 0 < s.st.toNat := decide_eq_true_iff

/-- Settles O55: the model compares `ST` as a number, and a byte is positive as a number exactly when it is not 0. -/
theorem soundIsOnWhileSoundTimerRuns : Obligations.SoundIsOnWhileSoundTimerRuns := by
  intro s
  calc s.sound = true
    _ ↔ 0 < s.st.toNat := s.sound_eq_true_iff
    _ ↔ s.st.toNat ≠ (0 : Byte).toNat := Nat.pos_iff_ne_zero
    _ ↔ s.st ≠ 0 := BitVec.toNat_ne_iff_ne

end Sys2Proof.Machine

/-! PROOFS. The opcode map and the encoder agree, for every word and every instruction (30_encoding.md R74 to R76). -/

namespace Sys2Proof

/-! ## Two rows of the map on one word (30_encoding.md R75) -/

/-- Two pattern nibbles fix different digits. -/
def nibblesClash (p q : Option (Fin 16)) : Bool :=
  match p, q with
  | some a, some b => a != b
  | _, _ => false

/-- The patterns of two rows fix different digits somewhere. -/
def Row.clashes (r q : Row) : Bool :=
  nibblesClash r.p3 q.p3 || nibblesClash r.p2 q.p2 || nibblesClash r.p1 q.p1 || nibblesClash r.p0 q.p0

theorem nibblesClash_eq_false {p q : Option (Fin 16)} {d : Fin 16} (hp : nibbleFits p d = true)
    (hq : nibbleFits q d = true) : nibblesClash p q = false := by
  match p, q with
  | none, _ | some _, none => rfl
  | some a, some b =>
    rw [nibbleFits_some] at hp hq
    simp [nibblesClash, ← hp, ← hq]

theorem Row.clashes_eq_false {r q : Row} {w : Word} (hr : rowMatches r w = true) (hq : rowMatches q w = true) :
    r.clashes q = false := by
  obtain ⟨hr3, hr2, hr1, hr0⟩ := rowMatches_iff.mp hr
  obtain ⟨hq3, hq2, hq1, hq0⟩ := rowMatches_iff.mp hq
  simp [Row.clashes, nibblesClash_eq_false hr3 hq3, nibblesClash_eq_false hr2 hq2, nibblesClash_eq_false hr1 hq1,
    nibblesClash_eq_false hr0 hq0]

/-- The patterns of the map clash pairwise, but for DXY0 and DXYN. -/
theorem opcodeRows_clash :
    opcodeRows.Pairwise fun r q => r.clashes q = true ∨ (r.mnemonic = "DRW16" ∧ q.mnemonic = "DRW") := by
  decide

theorem opcodeRows_sharing : opcodeRows.Pairwise fun r q =>
    ∀ w, rowMatches r w = true → rowMatches q w = true → r.mnemonic = "DRW16" ∧ q.mnemonic = "DRW" :=
  opcodeRows_clash.imp fun h w hr hq => h.resolve_left (by simp [Row.clashes_eq_false hr hq])

/-! ## Decoding the word of an instruction -/

/-- An enabled row that matches is the one the search stops at, unless it is DXYN's and DXY0's is enabled and
matches. -/
theorem decodeRow_of_rowMatches {ext : Bool} {w : Word} {r : Row} (hr : r ∈ opcodeRows) (hext : (ext || !r.ext) = true)
    (hmatch : rowMatches r w = true)
    (hdraw : ∀ q ∈ opcodeRows, (ext || !q.ext) = true → rowMatches q w = true →
      ¬ (q.mnemonic = "DRW16" ∧ r.mnemonic = "DRW")) :
    decodeRow ext w = some r := by
  obtain ⟨before, after, hsplit⟩ := List.mem_iff_append.mp hr
  have hpair := opcodeRows_sharing
  rw [hsplit, List.pairwise_append] at hpair
  refine List.find?_eq_some_iff_append.mpr ⟨by simp [hext, hmatch], before, after, hsplit, fun q hq => ?_⟩
  have hmem : q ∈ opcodeRows := hsplit ▸ List.mem_append_left _ hq
  have hshare := hpair.2.2 q hq r (by simp) w
  by_contra hfits
  obtain ⟨hqext, hqmatch⟩ : (ext || !q.ext) = true ∧ rowMatches q w = true := by
    simpa only [Bool.not_eq_true', Bool.not_eq_false, Bool.and_eq_true] using hfits
  exact hdraw q hmem hqext hqmatch (hshare hqmatch hmatch)

/-- DXY0's row is an extended one, and fixes the last digit to 0. -/
theorem row_of_drw16 {q : Row} (hq : q ∈ opcodeRows) (h : q.mnemonic = "DRW16") : q.ext = true ∧ q.p0 = some 0 := by
  revert q
  decide

theorem build_of_drw {r : Row} (hr : r ∈ opcodeRows) (h : r.mnemonic = "DRW") (f : Fields) :
    r.build f = .drw f.x f.y f.n := by
  revert r
  simp [opcodeRows, rowsClass0, rowsClass1To7, rowsClass8, rowsClass9ToE, rowsClassF]

namespace Laws

/-- Every instruction has its row of the map. -/
theorem ownRow (i : Instr) : OwnRow.Statement i := by
  cases i with
  | cls => exact OwnRow.cls
  | ret => exact OwnRow.ret
  | scr => exact OwnRow.scr
  | scl => exact OwnRow.scl
  | low => exact OwnRow.low
  | high => exact OwnRow.high
  | scu n => exact OwnRow.scu n
  | scd n => exact OwnRow.scd n
  | jp nnn => exact OwnRow.jp nnn
  | call nnn => exact OwnRow.call nnn
  | seImm x kk => exact OwnRow.seImm x kk
  | sneImm x kk => exact OwnRow.sneImm x kk
  | seReg x y => exact OwnRow.seReg x y
  | ldImm x kk => exact OwnRow.ldImm x kk
  | addImm x kk => exact OwnRow.addImm x kk
  | ldReg x y => exact OwnRow.ldReg x y
  | orReg x y => exact OwnRow.orReg x y
  | andReg x y => exact OwnRow.andReg x y
  | xorReg x y => exact OwnRow.xorReg x y
  | addReg x y => exact OwnRow.addReg x y
  | sub x y => exact OwnRow.sub x y
  | shr x y => exact OwnRow.shr x y
  | subn x y => exact OwnRow.subn x y
  | shl x y => exact OwnRow.shl x y
  | sneReg x y => exact OwnRow.sneReg x y
  | ldI nnn => exact OwnRow.ldI nnn
  | jpV0 nnn => exact OwnRow.jpV0 nnn
  | rnd x kk => exact OwnRow.rnd x kk
  | drw16 x y => exact OwnRow.drw16 x y
  | drw x y n => exact OwnRow.drw x y n
  | skp x => exact OwnRow.skp x
  | sknp x => exact OwnRow.sknp x
  | ldVxDT x => exact OwnRow.ldVxDT x
  | ldK x => exact OwnRow.ldK x
  | ldDT x => exact OwnRow.ldDT x
  | ldST x => exact OwnRow.ldST x
  | addI x => exact OwnRow.addI x
  | ldF x => exact OwnRow.ldF x
  | ldHF x => exact OwnRow.ldHF x
  | ldB x => exact OwnRow.ldB x
  | ldMemStore x => exact OwnRow.ldMemStore x
  | ldMemLoad x => exact OwnRow.ldMemLoad x
  | ldRStore x => exact OwnRow.ldRStore x
  | ldRLoad x => exact OwnRow.ldRLoad x

end Laws

/-- The word of a well-formed instruction decodes to it: its own row matches, and where DXY0's row would come first the
instruction is DXYN with `n = 0` in a build with `EXT`, which is not well formed. -/
theorem decodeWord_encodeWord {ext : Bool} {i : Instr} (hwf : WellFormed ext i = true) :
    decodeWord ext (encodeWord i) = some i := by
  obtain ⟨r, hr, hext, hmatch, hbuild⟩ := Laws.ownRow i
  have hrow : decodeRow ext (encodeWord i) = some r := by
    refine decodeRow_of_rowMatches hr (hext ext hwf) hmatch fun q hq hqext hqmatch => ?_
    rintro ⟨hq16, hrdrw⟩
    obtain ⟨hqx, hq0⟩ := row_of_drw16 hq hq16
    rw [build_of_drw hr hrdrw] at hbuild
    obtain ⟨-, -, -, hzero⟩ := rowMatches_iff.mp hqmatch
    rw [hq0, nibbleFits_some] at hzero
    have hn : (fieldsOf (encodeWord i)).n = 0 := hzero
    have hon : ext = true := by simpa [hqx] using hqext
    rw [← hbuild] at hwf
    simp [WellFormed, hn, hon] at hwf
  rw [decodeWord, hrow, Option.map_some, hbuild]

/-- Settles O1: `decodeWord_encodeWord` on the word that the two bytes of the instruction make. -/
theorem decodeOfEncodeIsTheInstruction : Obligations.DecodeOfEncodeIsTheInstruction := by
  intro ext i rest hwf
  refine decode_eq_ok_iff.mpr ⟨_, _, rfl, ?_⟩
  rw [wordOfBytes_bytesOfWord, decodeWord_encodeWord hwf]

/-- Settles O5: the patterns of two rows clash but for the pair named, whose word is the word of both instructions. -/
theorem onlyTheDrawRowsShareAWord : Obligations.OnlyTheDrawRowsShareAWord :=
  ⟨opcodeRows_sharing, fun x y =>
    ⟨decodeWord_encodeWord (i := .drw16 x y) rfl, decodeWord_encodeWord (i := .drw x y 0) rfl⟩⟩

/-! ## Encoding what a word decodes to -/

/-- A word is given by its four nibbles. -/
theorem wordOfNibbles_eq_iff {c x y n : Fin 16} {w : Word} : wordOfNibbles c x y n = w ↔
    nibble w 3 = c ∧ nibble w 2 = x ∧ nibble w 1 = y ∧ nibble w 0 = n := by
  constructor
  · rintro rfl; simp
  · rintro ⟨rfl, rfl, rfl, rfl⟩
    exact BitVec.eq_of_toNat_eq (by rw [toNat_wordOfNibbles, ← toNat_eq_nibbles])

theorem wordNNN_eq_iff {c : Fin 16} {nnn : Index} {w : Word} : wordNNN c nnn = w ↔
    nibble w 3 = c ∧ (fieldsOf w).nnn = nnn := by
  constructor
  · rintro rfl; simp
  · rintro ⟨rfl, rfl⟩
    refine BitVec.eq_of_toNat_eq ?_
    rw [toNat_wordNNN, fieldsOf, BitVec.toNat_ofNat, ← toNat_div_4096]
    omega

theorem wordXKK_eq_iff {c x : Fin 16} {kk : Byte} {w : Word} : wordXKK c x kk = w ↔
    nibble w 3 = c ∧ nibble w 2 = x ∧ (fieldsOf w).kk = kk := by
  constructor
  · rintro rfl; simp
  · rintro ⟨rfl, rfl, rfl⟩
    refine BitVec.eq_of_toNat_eq ?_
    rw [toNat_wordXKK, toNat_eq_nibbles w, fieldsOf, BitVec.toNat_ofNat]
    have := toNat_mod_256 w
    omega

@[simp] theorem fieldsOf_x (w : Word) : (fieldsOf w).x = nibble w 2 := rfl
@[simp] theorem fieldsOf_y (w : Word) : (fieldsOf w).y = nibble w 1 := rfl
@[simp] theorem fieldsOf_n (w : Word) : (fieldsOf w).n = nibble w 0 := rfl

/-- The instruction a matching row builds has the word: the digits its pattern fixes are the word's, and so are the
fields. -/
theorem encodeWord_build {r : Row} (hr : r ∈ opcodeRows) {w : Word} (hmatch : rowMatches r w = true) :
    encodeWord (r.build (fieldsOf w)) = w := by
  rw [rowMatches_iff] at hmatch
  revert r
  simp only [opcodeRows, rowsClass0, rowsClass1To7, rowsClass8, rowsClass9ToE, rowsClassF, List.forall_mem_append,
    List.forall_mem_cons, nibbleFits_some, nibbleFits_none, encodeWord, wordOfNibbles_eq_iff, wordNNN_eq_iff,
    wordXKK_eq_iff]
  simp +contextual

/-- What an enabled row builds is well formed, or it is DXYN with `n = 0` in a build with `EXT`. -/
theorem wellFormed_build {ext : Bool} {r : Row} (hr : r ∈ opcodeRows) (hext : (ext || !r.ext) = true) (f : Fields) :
    WellFormed ext (r.build f) = true ∨ (ext = true ∧ f.n = 0 ∧ r.build f = .drw f.x f.y 0) := by
  revert r
  simp only [opcodeRows, rowsClass0, rowsClass1To7, rowsClass8, rowsClass9ToE, rowsClassF, List.forall_mem_append,
    List.forall_mem_cons, WellFormed]
  by_cases hn : f.n = 0 <;> simp [hn]

theorem decodeRow_eq_some {ext : Bool} {w : Word} {r : Row} (h : decodeRow ext w = some r) :
    r ∈ opcodeRows ∧ (ext || !r.ext) = true ∧ rowMatches r w = true := by
  obtain ⟨hr, hmatch⟩ := mem_and_rowMatches_of_decodeRow h
  have hfits := List.find?_some h
  simp only [Bool.and_eq_true] at hfits
  exact ⟨hr, hfits.1, hmatch⟩

theorem encodeWord_of_decodeWord {ext : Bool} {w : Word} {i : Instr} (h : decodeWord ext w = some i) :
    encodeWord i = w := by
  obtain ⟨r, hrow, rfl⟩ := Option.map_eq_some_iff.mp h
  obtain ⟨hr, -, hmatch⟩ := decodeRow_eq_some hrow
  exact encodeWord_build hr hmatch

/-- What a word decodes to is well formed: DXYN with `n = 0` has the word of DXY0, to which it decodes with `EXT`. -/
theorem wellFormed_of_decodeWord {ext : Bool} {w : Word} {i : Instr} (h : decodeWord ext w = some i) :
    WellFormed ext i = true := by
  obtain ⟨r, hrow, rfl⟩ := Option.map_eq_some_iff.mp h
  obtain ⟨hr, hext, -⟩ := decodeRow_eq_some hrow
  obtain hwf | ⟨rfl, -, hdrw⟩ := wellFormed_build hr hext (fieldsOf w)
  · exact hwf
  · have hword := encodeWord_of_decodeWord h
    rw [hdrw] at h hword
    have h16 := decodeWord_encodeWord (ext := true) (i := .drw16 (fieldsOf w).x (fieldsOf w).y) rfl
    rw [show encodeWord (.drw16 (fieldsOf w).x (fieldsOf w).y) = w from hword, h] at h16
    simp at h16

/-- Settles O2: both facts about the row the search stops at. -/
theorem encodeOfDecodeIsTheWord : Obligations.EncodeOfDecodeIsTheWord := fun _ _ _ h =>
  ⟨encodeWord_of_decodeWord h, wellFormed_of_decodeWord h⟩

end Sys2Proof

/-! PROOFS. A word that no enabled row of the opcode map matches is on 30_encoding.md R76's list. -/

namespace Sys2Proof

/-- The low byte of a word is a given number when its two digits are those of the number. -/
theorem lowDigits_eq_iff (y n : Fin 16) (k : Nat) (hk : k < 256) :
    y.val * 16 + n.val = k ↔ y = ⟨k / 16, by omega⟩ ∧ n = ⟨k % 16, by omega⟩ := by
  simp only [Fin.ext_iff]; omega

/-- The words of the two scrolls with a count are those whose second digit is `B` or `C`. -/
theorem lowDigits_outside_scrolls_iff (y n : Fin 16) :
    y.val * 16 + n.val < 0xB0 ∨ 0xCF < y.val * 16 + n.val ↔ y ≠ 0xB ∧ y ≠ 0xC := by
  simp only [ne_eq, Fin.ext_iff]; omega

/-- The rows of one class ask of a word's other digits what R76's list of that class leaves out; the classes with no
unknown words each have a row that asks nothing more. -/
theorem unknownWord_of_decodeWord_eq_none {ext : Bool} {w : Word} (h : decodeWord ext w = none) :
    Claims.unknownWord ext w.toNat = true := by
  have hw := toNat_eq_nibbles w
  rw [decodeWord_eq_none_iff] at h
  generalize hc : nibble w 3 = c at hw
  simp only [opcodeRows, rowsClass0, rowsClass1To7, rowsClass8, rowsClass9ToE, rowsClassF, List.forall_mem_append,
    List.forall_mem_cons, ← Bool.not_eq_true, rowMatches_iff, nibbleFits_some, nibbleFits_none, hc] at h
  fin_cases c <;> simp [Claims.unknownWord, toNat_div_4096, toNat_mod_16, toNat_mod_256, hc, lowDigits_eq_iff] at h ⊢
  · -- class 0
    by_cases hx : nibble w 2 = 0
    · simp [hx] at hw
      cases ext <;> simpa [hx, hw, lowDigits_eq_iff, lowDigits_outside_scrolls_iff, and_assoc] using h
    · have : (nibble w 2).val ≠ 0 := by simpa using hx
      simp at hw
      omega
  · exact h -- class 5
  · omega -- class 8
  · exact h -- class 9
  · exact h -- class E
  · -- class F
    cases ext <;> simp [imp_iff_not_or] at h ⊢ <;> simp [h]

/-- Settles O3: the list's words match no row by `matchesKnownWords_of_mem`, and a word off the list matches one. -/
theorem unknownWordsAreThoseListed : Obligations.UnknownWordsAreThoseListed := fun _ _ =>
  ⟨unknownWord_of_decodeWord_eq_none, decodeWord_eq_none_of_unknownWord⟩

end Sys2Proof

/-! PROOFS. What every instruction does, said once: the fault that the table of 60_exceptions.md R241 gives, or else one
update of the state that writes out the fields it changes. -/

namespace Sys2Proof.Machine

/-! ## The parts of the state that a shared operation changes -/

/-- `PC` after a skip whose condition is `c` (41_flow.md R110). -/
def State.skipTarget (s : State) (c : Bool) : Word := if c then s.pc + 2 else s.pc

theorem State.skipIf_eq (s : State) (c : Bool) : s.skipIf c = s.setPC (s.skipTarget c) := by cases c <;> rfl

/-- The keypad after key `k` was used: released under `Smooth` (60_exceptions.md R255). -/
def State.keysAfterUse (s : State) (k : Nat) : Vector Bool 16 :=
  if s.policy = .smooth then s.keys.setIfInBounds k false else s.keys

theorem State.consumeKey_eq (s : State) (k : Nat) : s.consumeKey k = { s with keys := s.keysAfterUse k } := by
  unfold State.consumeKey State.keysAfterUse
  split
  · next hp => rw [if_pos hp]; rfl
  · next hp => rw [if_neg (by simp [hp])]

/-- Releasing a key that is not pressed changes nothing, so the keypad need not be asked first. -/
theorem State.keysAfterUse_of_released {s : State} {k : Nat} (h : s.key k = false) : s.keysAfterUse k = s.keys := by
  unfold State.keysAfterUse
  split_ifs
  · ext j hj
    by_cases hjk : k = j
    · subst hjk
      simpa [State.key, hj] using h.symm
    · simp [hjk]
  · rfl

theorem State.consumeKey_of_released {s : State} {k : Nat} (h : s.key k = false) : s.consumeKey k = s := by
  rw [State.consumeKey_eq, State.keysAfterUse_of_released h]

/-- `I` after a block transfer of `V0` to `Vx` (43_index_memory.md R155, R156). -/
def State.advancedI (s : State) (x : Reg) : Index :=
  if s.cfg.lsIInc = .xPlusOne then BitVec.ofNat 12 (s.i.toNat + x.val + 1) else s.i

theorem State.advanceI_eq (s : State) (x : Reg) : s.advanceI x = s.setI (s.advancedI x) := by
  unfold State.advanceI State.advancedI
  cases s.cfg.lsIInc <;> rfl

/-- The buffer that LOW leaves (46_extended.md R215). -/
def State.lowGfx (s : State) : Pixels := if s.res = .low then s.gfx else rescaleDown s.gfx

/-- The buffer that HIGH leaves (46_extended.md R216). -/
def State.highGfx (s : State) : Pixels := if s.res = .high then s.gfx else rescaleUp s.gfx

/-! ## The update of an instruction that completes -/

/-- EX9E and EXA1 on a key number that names a key (45_keys_timers.md R191, R192). -/
def State.keySkipped (s : State) (x : Reg) (wanted : Bool) : State :=
  { s with keys := s.keysAfterUse (s.getV x).toNat, pc := s.skipTarget (s.key (s.getV x).toNat == wanted) }

/-- FX0A with the pressed key there is, if any (45_keys_timers.md R193). -/
def State.keyAwaited (s : State) (x : Reg) (pressed : Option Nat) : State :=
  { s with pc := pressed.elim (s.pc - 2) fun _ => s.pc
           v := pressed.elim s.v fun k => s.v.set x.val (BitVec.ofNat 8 k) x.isLt
           keys := pressed.elim s.keys s.keysAfterUse }

/-- `RAM` with some bytes written from `I` up. -/
def State.ramStored (s : State) (bs : List Byte) : Memory := (s.writeBytes (s.dataAddr 0) bs).ram

/-- What an instruction does to the state when none of its checks fails. -/
def effect (i : Instr) (s : State) : State :=
  match i with
  | .cls => s.setGfx (Screen.blank s.res.width s.res.height)
  | .ret => s.pop.setPC s.top
  | .scr => s.setGfx (Screen.scrollRight s.res.width s.res.height s.gfx)
  | .scl => s.setGfx (Screen.scrollLeft s.res.width s.res.height s.gfx)
  | .low => s.setDisplay .low s.lowGfx
  | .high => s.setDisplay .high s.highGfx
  | .scu n => s.setGfx (Screen.scrollUp s.res.width s.res.height n.val s.gfx)
  | .scd n => s.setGfx (Screen.scrollDown s.res.width s.res.height n.val s.gfx)
  | .jp nnn => s.setPC (absolute nnn)
  | .call nnn => (s.push s.pc).setPC (absolute nnn)
  | .seImm x kk => s.setPC (s.skipTarget (s.getV x == kk))
  | .sneImm x kk => s.setPC (s.skipTarget (s.getV x != kk))
  | .seReg x y => s.setPC (s.skipTarget (s.getV x == s.getV y))
  | .sneReg x y => s.setPC (s.skipTarget (s.getV x != s.getV y))
  | .jpV0 nnn => s.setPC (s.offsetTarget nnn)
  | .ldImm x kk => s.setV x kk
  | .addImm x kk => s.setV x (s.getV x + kk)
  | .ldReg x y => s.setV x (s.getV y)
  | .orReg x y => s.setV x (s.getV x ||| s.getV y)
  | .andReg x y => s.setV x (s.getV x &&& s.getV y)
  | .xorReg x y => s.setV x (s.getV x ^^^ s.getV y)
  | .addReg x y => s.setVThenVF x (s.getV x + s.getV y) (carryFlag (s.getV x) (s.getV y))
  | .sub x y => s.setVThenVF x (s.getV x - s.getV y) (notBorrowFlag (s.getV x) (s.getV y))
  | .subn x y => s.setVThenVF x (s.getV y - s.getV x) (notBorrowFlag (s.getV y) (s.getV x))
  | .shr x y => s.setVThenVF x (s.shiftSource x y >>> 1) (shrFlag (s.shiftSource x y))
  | .shl x y => s.setVThenVF x (s.shiftSource x y <<< 1) (shlFlag (s.shiftSource x y))
  | .rnd x kk => s.drawn.setV x (s.drawByte &&& kk)
  | .ldI nnn => s.setI nnn
  | .addI x => s.setI (BitVec.ofNat 12 (s.i.toNat + (s.getV x).toNat))
  | .ldF x => s.setI (smallGlyph (s.getV x))
  | .ldHF x => s.setI (bigGlyph (s.getV x))
  | .drw x y n => s.drawSprite x y (s.spriteRows8 n.val)
  | .drw16 x y => s.drawSprite x y s.spriteRows16
  | .skp x => s.keySkipped x true
  | .sknp x => s.keySkipped x false
  | .ldK x => s.keyAwaited x s.pressedKey
  | .ldVxDT x => s.setV x s.dt
  | .ldDT x => s.setDT (s.getV x)
  | .ldST x => s.setST (s.getV x)
  | .ldB x => { s with ram := s.ramStored (decimalDigits (s.getV x)) }
  | .ldMemStore x => { s with ram := s.ramStored (s.firstV x), i := s.advancedI x }
  | .ldMemLoad x => { s with v := copyUpTo s.v x.val fun j => s.readMem (s.dataAddr j), i := s.advancedI x }
  | .ldRStore x => { s with flags := copyUpTo s.flags x.val fun j => s.v[j]?.getD 0 }
  | .ldRLoad x => { s with v := copyUpTo s.v x.val fun j => s.flags[j]?.getD 0 }

/-- The state an instruction leaves: stopped by the fault the table gives it, or its update. -/
def outcome (i : Instr) (s : State) : State :=
  match Claims.faultOf i s with
  | some f => Claims.faulted f s
  | none => effect i s

theorem outcome_of_fault {i : Instr} {s : State} {f : Fault} (h : Claims.faultOf i s = some f) :
    outcome i s = Claims.faulted f s := by simp [outcome, h]

theorem outcome_of_no_fault {i : Instr} {s : State} (h : Claims.faultOf i s = none) : outcome i s = effect i s := by
  simp [outcome, h]

/-! ## Each instruction answers that state -/

/-- A check that fails exactly where the table gives the fault. -/
theorem check_next {i : Instr} {s : State} {c : Bool} {f : Fault} {P : Prop} [Decidable P]
    (hfault : Claims.faultOf i s = if P then some f else none) (hc : c = true ↔ ¬ P) :
    check c f s (.next (effect i s)) = .next (outcome i s) := by
  by_cases hP : P
  · rw [check_fail f s _ (by simpa [hP] using hc), outcome_of_fault (hfault.trans (if_pos hP))]; rfl
  · rw [check_pass f s _ (hc.mpr hP), outcome_of_no_fault (hfault.trans (if_neg hP))]

/-- The two checks of a block transfer: its bytes, then the advance of `I` (60_exceptions.md R244). -/
theorem check_transfer {i : Instr} {s : State} {x : Reg}
    (hfault : Claims.faultOf i s = Claims.faultOf (.ldMemStore x) s) :
    check (inRam (s.dataAddr 0) (x.val + 1)) .memOutOfRange s
      (check (s.advanceFits x) .indexOverflow s (.next (effect i s))) = .next (outcome i s) := by
  have hram : inRam (s.dataAddr 0) (x.val + 1) = true ↔ ¬ 0xFFF < s.i.toNat + x.val := by
    rw [inRam_iff, State.dataAddr]; omega
  have hfits : s.advanceFits x = true ↔ ¬ (s.cfg.lsIInc = .xPlusOne ∧ 0xFFF < s.i.toNat + x.val + 1) := by
    unfold State.advanceFits
    cases s.cfg.lsIInc <;> simp
  by_cases hmem : 0xFFF < s.i.toNat + x.val
  · rw [check_fail _ _ _ (by simpa [hmem] using hram), outcome_of_fault (hfault.trans (if_pos hmem))]; rfl
  · rw [check_pass _ _ _ (hram.mpr hmem)]
    exact check_next (hfault.trans (if_neg hmem)) hfits

theorem State.skipOnKey_eq (s : State) (x : Reg) (wanted : Bool) : s.skipOnKey x wanted =
    check (decide ((s.getV x).toNat ≤ 15)) .keyIndex s (.next (s.keySkipped x wanted)) := by
  unfold State.skipOnKey
  cases hk : s.key (s.getV x).toNat with
  | false => simp [State.skipIf_eq, State.keySkipped, hk, State.keysAfterUse_of_released hk, State.setPC]
  | true => simp [State.skipIf_eq, State.consumeKey_eq, State.keySkipped, hk, State.setPC, State.skipTarget]

theorem execLow_eq (s : State) : execLow s = .next (s.setDisplay .low s.lowGfx) := by
  unfold execLow State.lowGfx
  split
  · next h => rw [if_pos h, ← h]; rfl
  · next h => rw [if_neg (by simp [h])]

theorem execHigh_eq (s : State) : execHigh s = .next (s.setDisplay .high s.highGfx) := by
  unfold execHigh State.highGfx
  split
  · next h => rw [if_neg (by simp [h])]
  · next h => rw [if_pos h, ← h]; rfl

theorem execLdK_eq (s : State) (x : Reg) : execLdK x s = .next (s.keyAwaited x s.pressedKey) := by
  unfold execLdK
  cases s.pressedKey with
  | none => rfl
  | some k => exact congrArg Host.Outcome.next (State.consumeKey_eq _ k)

/-- EVERY INSTRUCTION ANSWERS ONE STATE: its fault's or its update's (40_cycle.md R96, R97). -/
theorem exec_eq (i : Instr) (s : State) : exec i s = .next (outcome i s) := by
  cases i with
  | cls | scr | scl | scu | scd | jp | jpV0 | ldImm | addImm | ldReg | orReg | andReg | xorReg | addReg | sub | shr
  | subn | shl | rnd | ldI | ldF | ldHF | ldVxDT | ldDT | ldST => rfl
  | seImm | sneImm | seReg | sneReg => exact congrArg Host.Outcome.next (s.skipIf_eq _)
  | low => exact execLow_eq s
  | high => exact execHigh_eq s
  | ret =>
    have h : decide (1 ≤ s.sp.val) = true ↔ ¬ s.sp = 0 := by rw [decide_eq_true_iff, Fin.ext_iff, Fin.val_zero]; omega
    exact check_next (i := .ret) rfl h
  | call nnn =>
    have h : decide (s.sp.val ≤ 15) = true ↔ ¬ s.sp = 16 := by rw [decide_eq_true_iff, Fin.ext_iff]; omega
    exact check_next (i := .call nnn) rfl h
  | addI x =>
    exact check_next (i := .addI x) (P := 0xFFF < s.i.toNat + (s.getV x).toNat) rfl (by simp)
  | ldRStore x => exact check_next (i := .ldRStore x) (P := 7 < x.val) rfl (by simp)
  | ldRLoad x => exact check_next (i := .ldRLoad x) (P := 7 < x.val) rfl (by simp)
  | drw x y n =>
    have h : (n.val == 0 || inRam (s.dataAddr 0) n.val) = true ↔ ¬ (n ≠ 0 ∧ 0xFFF < s.i.toNat + n.val - 1) := by
      simp only [Bool.or_eq_true, beq_iff_eq, inRam_iff, State.dataAddr, ne_eq, Fin.ext_iff, Fin.val_zero]
      omega
    exact check_next (i := .drw x y n) rfl h
  | drw16 x y =>
    have h : inRam (s.dataAddr 0) 32 = true ↔ ¬ 0xFFF < s.i.toNat + 31 := by rw [inRam_iff, State.dataAddr]; omega
    exact check_next (i := .drw16 x y) rfl h
  | ldB x =>
    have h : inRam (s.dataAddr 0) 3 = true ↔ ¬ 0xFFF < s.i.toNat + 2 := by rw [inRam_iff, State.dataAddr]; omega
    simp only [exec, execLdB]
    rw [State.writeBytes_eq]
    exact check_next (i := .ldB x) rfl h
  | skp x => exact (s.skipOnKey_eq x true).trans (check_next (i := .skp x) (P := 15 < (s.getV x).toNat) rfl (by simp))
  | sknp x =>
    exact (s.skipOnKey_eq x false).trans (check_next (i := .sknp x) (P := 15 < (s.getV x).toNat) rfl (by simp))
  | ldK x => exact execLdK_eq s x
  | ldMemStore x =>
    simp only [exec, execLdMemStore, State.advanceI_eq]
    rw [State.writeBytes_eq]
    exact check_transfer (i := .ldMemStore x) rfl
  | ldMemLoad x =>
    simp only [exec, execLdMemLoad, State.advanceI_eq]
    exact check_transfer (i := .ldMemLoad x) rfl

end Sys2Proof.Machine

/-! PROOFS. The frames of the execute phase: what an instruction leaves unchanged, one element of the state at a time
(40_cycle.md R96 to R98, 60_exceptions.md R241, 10_state.md R20 to R36, 20_memory.md R54). -/

namespace Sys2Proof.Machine

/-! ## The two ways an instruction can end -/

theorem exec_eq_next_iff {i : Instr} {s t : State} : exec i s = .next t ↔ outcome i s = t := by
  rw [exec_eq, Host.Outcome.next.injEq]

theorem exec_of_fault {i : Instr} {s : State} {f : Fault} (h : Claims.faultOf i s = some f) :
    exec i s = .next (Claims.faulted f s) := by rw [exec_eq, outcome_of_fault h]

theorem exec_of_no_fault {i : Instr} {s : State} (h : Claims.faultOf i s = none) :
    exec i s = .next (effect i s) := by rw [exec_eq, outcome_of_no_fault h]

/-- An instruction answers the state its fault leaves, or the update of one that has no fault. -/
theorem exec_next_cases {i : Instr} {s t : State} (h : exec i s = .next t) :
    (∃ f, Claims.faultOf i s = some f ∧ t = Claims.faulted f s) ∨ (Claims.faultOf i s = none ∧ t = effect i s) := by
  rw [exec_eq_next_iff] at h
  cases hf : Claims.faultOf i s with
  | some f => exact .inl ⟨f, rfl, h.symm.trans (outcome_of_fault hf)⟩
  | none => exact .inr ⟨rfl, h.symm.trans (outcome_of_no_fault hf)⟩

/-- Settles O13: an instruction answers by `exec_eq`, and a step is one, a stop or nothing. -/
theorem everyStepAnswersANextState : Obligations.EveryStepAnswersANextState := by
  have hexec : ∀ i s, ∃ t, exec i s = .next t := fun i s => ⟨_, exec_eq i s⟩
  refine ⟨fun s => ?_, hexec⟩
  cases hc : s.cpu with
  | stopped => exact ⟨s, step_of_stopped hc⟩
  | running =>
    cases hf : s.fetchable with
    | false => exact ⟨s.halt (.fault .fetchOutOfRange), by simp [step, hc, hf, raise]⟩
    | true =>
      cases hd : decodeWord s.cfg.ext s.fetchedWord with
      | none => exact ⟨_, step_of_unknown hc hf hd⟩
      | some i => rw [step_of_decode hc hf hd]; exact hexec i _

/-! ## The elements no instruction writes, but for a stop -/

@[simp] theorem effect_cfg (i : Instr) (s : State) : (effect i s).cfg = s.cfg := by cases i <;> rfl

@[simp] theorem effect_cpu (i : Instr) (s : State) : (effect i s).cpu = s.cpu := by cases i <;> rfl

@[simp] theorem effect_stop (i : Instr) (s : State) : (effect i s).stop = s.stop := by cases i <;> rfl

@[simp] theorem effect_op (i : Instr) (s : State) : (effect i s).op = s.op := by cases i <;> rfl

@[simp] theorem effect_policy (i : Instr) (s : State) : (effect i s).policy = s.policy := by cases i <;> rfl

/-- Settles O16: an update writes neither `CPU` nor `STOP`, so a state that is stopped is the one a fault leaves. -/
theorem stopsArePrecise : Obligations.StopsArePrecise := by
  intro i s t hrun hnone h hstopped
  obtain ⟨f, -, rfl⟩ | ⟨-, rfl⟩ := exec_next_cases h
  · exact ⟨f, rfl⟩
  · simp [hrun, hnone] at hstopped

/-- Settles O17: `exec_eq` is stated with the table's faults, and an update leaves `STOP` as it was. -/
theorem faultsAreThoseOfTheTable : Obligations.FaultsAreThoseOfTheTable := by
  intro i s t hnone h
  obtain ⟨f, hf, rfl⟩ | ⟨hf, rfl⟩ := exec_next_cases h
  · rw [hf]; rfl
  · rw [hf, effect_stop, hnone]; rfl

/-! ## The elements with writers of their own -/

theorem effect_i (i : Instr) (s : State) : (effect i s).i = s.i ∨ Claims.mayWriteI i s := by
  cases i with
  | ldI | addI | ldF | ldHF => exact .inr trivial
  | ldMemStore x | ldMemLoad x =>
    by_cases h : s.cfg.lsIInc = .xPlusOne
    · exact .inr h
    · exact .inl (if_neg h)
  | _ => exact .inl rfl

theorem effect_stack (i : Instr) (s : State) : (effect i s).stack = s.stack ∨ ∃ nnn, i = .call nnn := by
  cases i with
  | call nnn => exact .inr ⟨nnn, rfl⟩
  | _ => exact .inl rfl

theorem effect_sp (i : Instr) (s : State) : (effect i s).sp = s.sp ∨ i = .ret ∨ ∃ nnn, i = .call nnn := by
  cases i with
  | ret => exact .inr (.inl rfl)
  | call nnn => exact .inr (.inr ⟨nnn, rfl⟩)
  | _ => exact .inl rfl

theorem effect_dt (i : Instr) (s : State) : (effect i s).dt = s.dt ∨ ∃ x, i = .ldDT x := by
  cases i with
  | ldDT x => exact .inr ⟨x, rfl⟩
  | _ => exact .inl rfl

theorem effect_st (i : Instr) (s : State) : (effect i s).st = s.st ∨ ∃ x, i = .ldST x := by
  cases i with
  | ldST x => exact .inr ⟨x, rfl⟩
  | _ => exact .inl rfl

theorem effect_gfx (i : Instr) (s : State) : (effect i s).gfx = s.gfx ∨ Claims.mayDraw i := by
  cases i with
  | cls | drw | drw16 | scu | scd | scr | scl | low | high => exact .inr trivial
  | _ => exact .inl rfl

theorem effect_res (i : Instr) (s : State) : (effect i s).res = s.res ∨ i = .low ∨ i = .high := by
  cases i with
  | low => exact .inr (.inl rfl)
  | high => exact .inr (.inr rfl)
  | _ => exact .inl rfl

theorem effect_flags (i : Instr) (s : State) : (effect i s).flags = s.flags ∨ ∃ x, i = .ldRStore x := by
  cases i with
  | ldRStore x => exact .inr ⟨x, rfl⟩
  | _ => exact .inl rfl

theorem effect_draws (i : Instr) (s : State) : (effect i s).draws = s.draws ∨ ∃ x kk, i = .rnd x kk := by
  cases i with
  | rnd x kk => exact .inr ⟨x, kk, rfl⟩
  | _ => exact .inl rfl

/-- Using a key changes the keypad only under `Smooth` (60_exceptions.md R255). -/
theorem State.keysAfterUse_eq_or (s : State) (k : Nat) : s.keysAfterUse k = s.keys ∨ s.policy = .smooth :=
  (em (s.policy = .smooth)).symm.imp_left fun h => if_neg h

theorem effect_keys (i : Instr) (s : State) :
    (effect i s).keys = s.keys ∨ (s.policy = .smooth ∧ ∃ x, i = .skp x ∨ i = .sknp x ∨ i = .ldK x) := by
  cases i with
  | skp x => exact (s.keysAfterUse_eq_or _).imp_right fun h => ⟨h, x, .inl rfl⟩
  | sknp x => exact (s.keysAfterUse_eq_or _).imp_right fun h => ⟨h, x, .inr (.inl rfl)⟩
  | ldK x =>
    simp only [effect, State.keyAwaited]
    cases s.pressedKey with
    | none => exact .inl rfl
    | some k => exact (s.keysAfterUse_eq_or k).imp_right fun h => ⟨h, x, .inr (.inr rfl)⟩
  | _ => exact .inl rfl

/-- Settles O26: a stop changes none of these elements, and an update only where the lemmas above name the writer. -/
theorem specialStateHasOnlyItsNamedWriters : Obligations.SpecialStateHasOnlyItsNamedWriters := by
  intro i s t h
  obtain ⟨f, -, rfl⟩ | ⟨-, rfl⟩ := exec_next_cases h
  · exact ⟨absurd rfl, absurd rfl, absurd rfl, absurd rfl, absurd rfl, absurd rfl, absurd rfl, absurd rfl, absurd rfl,
      absurd rfl, rfl, rfl, rfl⟩
  · exact ⟨(effect_i i s).resolve_left, (effect_stack i s).resolve_left, (effect_sp i s).resolve_left,
      (effect_dt i s).resolve_left, (effect_st i s).resolve_left, (effect_gfx i s).resolve_left,
      (effect_res i s).resolve_left, (effect_flags i s).resolve_left, (effect_keys i s).resolve_left,
      (effect_draws i s).resolve_left, effect_policy i s, effect_op i s, effect_cfg i s⟩

/-! ## The general registers -/

theorem State.getV_setV_ne (s : State) {x j : Reg} (b : Byte) (h : j ≠ x) : (s.setV x b).getV j = s.getV j := by
  rw [State.getV_setV, if_neg h]

theorem State.getV_setVThenVF_ne (s : State) {x j : Reg} (b f : Byte) (h : ¬ (j = x ∨ j = 15)) :
    (s.setVThenVF x b f).getV j = s.getV j := by
  obtain ⟨hx, hf⟩ := not_or.mp h
  rw [State.getV_setVThenVF, if_neg hf, if_neg hx]

/-- A block of registers replaced: the block holds the source's values, the others are kept. -/
theorem State.getV_copyUpTo (s : State) (x j : Reg) (src : Nat → Byte) (i : Index) :
    State.getV { s with v := copyUpTo s.v x.val src, i := i } j = if j ≤ x then src j.val else s.getV j :=
  copyUpTo_getElem s.v x.val src j.val j.isLt

theorem effect_getV {i : Instr} {s : State} {j : Reg} (h : ¬ Claims.mayWrite i j) :
    (effect i s).getV j = s.getV j := by
  cases i with
  | ldImm | addImm | ldReg | orReg | andReg | xorReg | ldVxDT => exact s.getV_setV_ne _ h
  | rnd => exact s.drawn.getV_setV_ne _ h
  | addReg | sub | subn | shr | shl => exact s.getV_setVThenVF_ne _ _ h
  | drw | drw16 => exact (s.setGfx _).getV_setV_ne _ h
  | ldMemLoad | ldRLoad => exact (s.getV_copyUpTo _ j _ _).trans (if_neg h)
  | ldK x =>
    simp only [effect]
    cases s.pressedKey with
    | none => rfl
    | some k => exact s.getV_setV_ne _ h
  | _ => rfl

/-- Settles O25: a stop keeps the registers, and an update keeps those the instruction does not name. -/
theorem registersHaveOnlyTheirNamedWriters : Obligations.RegistersHaveOnlyTheirNamedWriters := by
  intro i s t j h hj
  obtain ⟨f, -, rfl⟩ | ⟨-, rfl⟩ := exec_next_cases h
  · rfl
  · exact effect_getV hj

/-! ## Memory -/

/-- A byte outside a stored block reads as before. -/
theorem State.readMem_writeBytes_outside (s : State) {a a' : Nat} {bs : List Byte}
    (h : a' < a ∨ a + bs.length ≤ a') : (s.writeBytes a bs).readMem a' = s.readMem a' := by
  rw [State.readMem_writeBytes]
  split_ifs with ha
  · rw [List.getElem?_eq_none (by omega), Option.getD_none]
  · rfl

theorem State.readMem_ramStored (s : State) (bs : List Byte) (i : Index) (a : Nat) :
    State.readMem { s with ram := s.ramStored bs, i := i } a = (s.writeBytes (s.dataAddr 0) bs).readMem a := by
  rw [State.writeBytes_eq]; rfl

theorem effect_readMem {i : Instr} {s : State} {a : Nat} (h : ¬ Claims.storesAt i s a) :
    (effect i s).readMem a = s.readMem a := by
  cases i with
  | ldB x =>
    have hout : a < s.dataAddr 0 ∨ s.dataAddr 0 + 3 ≤ a := by
      simp only [Claims.storesAt, State.dataAddr] at h ⊢; omega
    exact (s.readMem_ramStored _ s.i a).trans (s.readMem_writeBytes_outside hout)
  | ldMemStore x =>
    have hout : a < s.dataAddr 0 ∨ s.dataAddr 0 + (s.firstV x).length ≤ a := by
      rw [State.length_firstV]
      simp only [Claims.storesAt, State.dataAddr] at h ⊢; omega
    exact (s.readMem_ramStored _ _ a).trans (s.readMem_writeBytes_outside hout)
  | _ => rfl

/-- Settles O24: a stop stores nothing, and an update only where the instruction's addresses say. -/
theorem onlyStoresChangeMemory : Obligations.OnlyStoresChangeMemory := by
  intro i s t a h ha
  obtain ⟨f, -, rfl⟩ | ⟨-, rfl⟩ := exec_next_cases h
  · rfl
  · exact effect_readMem ha

/-! ## `PC` -/

theorem toNat_absolute (nnn : Index) : (absolute nnn).toNat = nnn.toNat :=
  BitVec.toNat_setWidth_of_le (by decide)

/-- BNNN's target is the exact sum, since 0xFFF + 0xFF is below 0x10000 (41_flow.md R118). -/
theorem State.toNat_offsetTarget (s : State) (nnn : Index) :
    (s.offsetTarget nnn).toNat = nnn.toNat + (s.getV 0).toNat := by
  have := nnn.isLt
  have := (s.getV 0).isLt
  simp [State.offsetTarget, BitVec.toNat_add]
  omega

theorem State.toNat_skipTarget (s : State) {c : Bool} {P : Prop} [Decidable P] (h : c = true ↔ P) :
    (s.skipTarget c).toNat = if P then (s.pc + 2).toNat else s.pc.toNat := by
  simp only [State.skipTarget, h, apply_ite BitVec.toNat]

theorem State.toNat_keyAwaited_pc (s : State) (x : Reg) : (s.keyAwaited x s.pressedKey).pc.toNat =
    if ∀ k < 16, s.key k = false then (s.pc - 2).toNat else s.pc.toNat := by
  simp only [State.keyAwaited, ← State.pressedKey_eq_none]
  cases s.pressedKey <;> simp

/-- `PC` after an update is the one 40_cycle.md R98 gives. -/
theorem effect_pc (i : Instr) (s : State) : (effect i s).pc.toNat = Claims.pcAfter i s := by
  cases i with
  | jp nnn | call nnn => exact toNat_absolute nnn
  | jpV0 nnn => exact s.toNat_offsetTarget nnn
  | seImm | seReg | skp | sknp => exact s.toNat_skipTarget beq_iff_eq
  | sneImm | sneReg => exact s.toNat_skipTarget bne_iff_ne
  | ldK x => exact s.toNat_keyAwaited_pc x
  | _ => rfl

/-- Settles O14: a running core is not one that a fault stopped, so `effect_pc` speaks of its `PC`. -/
theorem pcAfterEveryInstruction : Obligations.PcAfterEveryInstruction := by
  intro i s t h hrun
  obtain ⟨f, -, rfl⟩ | ⟨-, rfl⟩ := exec_next_cases h
  · exact absurd hrun (by simp [Claims.faulted])
  · exact effect_pc i s

end Sys2Proof.Machine

/-! PROOFS. The invariants of the core: every step and every command of the host keeps them (10_state.md, 20_memory.md,
40_cycle.md, 60_exceptions.md R258, 70_reset_and_hazards.md). -/

namespace Sys2Proof.Machine

/-! ## What a step keeps -/

/-- A STEP KEEPS `P` when a stop in place keeps it, and when, through a condition `Q` that the latch and the advance
establish, a stop and the update of a well-formed instruction without a fault establish it again. -/
theorem step_keeps {P Q : State → Prop} (hstop : ∀ s k, P s → P (s.halt k))
    (hlatch : ∀ s, s.fetchable = true → P s → Q (s.latch s.fetchedWord)) (hstopQ : ∀ s k, Q s → P (s.halt k))
    (heffect : ∀ i s, WellFormed s.cfg.ext i = true → Claims.faultOf i s = none → Q s → P (effect i s))
    {s t : State} (hs : P s) (h : step s = .next t) : P t := by
  obtain ⟨-, rfl⟩ | ⟨-, -, rfl⟩ | ⟨-, hf, i, hi, hexec⟩ | ⟨-, hf, -, rfl⟩ := step_cases h
  · exact hs
  · exact hstop s _ hs
  · obtain ⟨f, -, rfl⟩ | ⟨hnone, rfl⟩ := exec_next_cases hexec
    · exact hstopQ _ (.fault f) (hlatch s hf hs)
    · exact heffect i _ (wellFormed_of_decodeWord hi) hnone (hlatch s hf hs)
  · exact hstopQ _ .unknownOpcode (hlatch s hf hs)

/-! ## `RAM` -/

theorem ramCanonical_ramStored {s : State} {bs : List Byte} (h : s.RamCanonical) (hb : s.i.toNat + bs.length ≤ 4096) :
    Memory.wf (ramReset s.cfg) (s.ramStored bs) :=
  s.ramCanonical_writeBytes _ bs h hb

@[simp] theorem length_decimalDigits (b : Byte) : (decimalDigits b).length = 3 := rfl

/-- Where the table gives no fault, the condition of its first line does not hold. -/
theorem not_of_fault_eq_none {P : Prop} [Decidable P] {f : Fault} {others : Option Fault}
    (h : (if P then some f else others) = none) : ¬ P :=
  fun hP => Option.some_ne_none f ((if_pos hP).symm.trans h)

/-- The two stores write inside the 4096 bytes, since they have no fault. -/
theorem ramCanonical_effect {i : Instr} {s : State} (hnone : Claims.faultOf i s = none) (h : s.RamCanonical) :
    (effect i s).RamCanonical := by
  cases i with
  | ldB x =>
    have hin : ¬ 0xFFF < s.i.toNat + 2 := not_of_fault_eq_none hnone
    exact ramCanonical_ramStored h (by rw [length_decimalDigits]; omega)
  | ldMemStore x =>
    have hin : ¬ 0xFFF < s.i.toNat + x.val := not_of_fault_eq_none hnone
    exact ramCanonical_ramStored h (by rw [State.length_firstV]; omega)
  | _ => exact h

/-- Settles O18: `step_keeps`, the latch and a stop not touching `RAM`. -/
theorem stepKeepsRamCanonical : Obligations.StepKeepsRamCanonical := fun _ _ hs h =>
  step_keeps (Q := State.RamCanonical) (fun _ _ h => h) (fun _ _ h => h) (fun _ _ h => h)
    (fun _ _ _ hnone => ramCanonical_effect hnone) hs h

/-! ## The graphics buffer -/

theorem State.shaped_lowGfx {s : State} (h : s.DisplayShaped) :
    Screen.shaped Res.low.width Res.low.height s.lowGfx := by
  unfold State.lowGfx
  split
  · next hr => rwa [State.DisplayShaped, hr] at h
  · exact Screen.shaped_build 64 32 _

theorem State.shaped_highGfx {s : State} (h : s.DisplayShaped) :
    Screen.shaped Res.high.width Res.high.height s.highGfx := by
  unfold State.highGfx
  split
  · next hr => rwa [State.DisplayShaped, hr] at h
  · exact Screen.shaped_build 128 64 _

/-- Drawing keeps the shape; the scrolls, CLS and the switches build a buffer of the size of the resolution. -/
theorem displayShaped_effect (i : Instr) {s : State} (h : s.DisplayShaped) : (effect i s).DisplayShaped := by
  cases i with
  | cls => exact Screen.shaped_blank _ _
  | scr | scl | scu | scd => exact Screen.shaped_build _ _ _
  | drw | drw16 => exact Screen.shaped_xorRowsFrom _ _ _ _ _ _ _ h
  | low => exact State.shaped_lowGfx h
  | high => exact State.shaped_highGfx h
  | _ => exact h

/-- Settles O19: `step_keeps`, the latch and a stop not touching the display. -/
theorem stepKeepsDisplayShaped : Obligations.StepKeepsDisplayShaped := fun _ _ hs h =>
  step_keeps (Q := State.DisplayShaped) (fun _ _ h => h) (fun _ _ h => h) (fun _ _ h => h)
    (fun i _ _ _ => displayShaped_effect i) hs h

/-! ## `PC` and the stack -/

/-- Every stack entry is at most 0x1000, the highest `PC` a CALL can push. -/
def State.StackBounded (s : State) : Prop := ∀ j, (h : j < 16) → s.stack[j].toNat ≤ 0x1000

/-- What holds after the latch and the advance: `PC` is two above an address that could be fetched from. -/
def State.Advanced (s : State) : Prop := 2 ≤ s.pc.toNat ∧ s.pc.toNat ≤ 0x1000 ∧ s.StackBounded

theorem State.advanced_latch {s : State} (hf : s.fetchable = true) (h : s.PcBounded) :
    (s.latch s.fetchedWord).Advanced := by
  have hpc := s.latch_pc_toNat s.fetchedWord hf
  rw [s.fetchable_iff] at hf
  exact ⟨by omega, by omega, h.2⟩

theorem State.toNat_top_le {s : State} (h : s.StackBounded) (k : Nat) : (s.stack[k]?.getD 0).toNat ≤ 0x1000 := by
  by_cases hk : k < 16
  · simpa [hk] using h k hk
  · simp [hk]

theorem ite_le_of_le {P : Prop} [Decidable P] {a b n : Nat} (ha : a ≤ n) (hb : b ≤ n) : (if P then a else b) ≤ n := by
  split <;> assumption

/-- No instruction goes beyond 0xFFF + 0xFF, nor FX0A below 0. -/
theorem pcAfter_le (i : Instr) {s : State} (h : s.Advanced) : Claims.pcAfter i s ≤ 0x10FE := by
  obtain ⟨hlow, hhigh, hstack⟩ := h
  have hpc : s.pc.toNat ≤ 0x10FE := by omega
  have hskip : (s.pc + 2).toNat ≤ 0x10FE := by simp [BitVec.toNat_add]; omega
  have hback : (s.pc - 2).toNat ≤ 0x10FE := by
    rw [BitVec.toNat_sub_of_le (by simpa [BitVec.le_def] using hlow)]; omega
  cases i with
  | jp nnn | call nnn => exact Nat.le_trans (Nat.le_of_lt nnn.isLt) (by decide)
  | jpV0 nnn => exact Nat.add_le_add (Nat.le_of_lt_succ nnn.isLt) (Nat.le_of_lt_succ (s.getV 0).isLt)
  | ret => exact Nat.le_trans (State.toNat_top_le hstack _) (by decide)
  | seImm | sneImm | seReg | sneReg | skp | sknp => exact ite_le_of_le hskip hpc
  | ldK => exact ite_le_of_le hback hpc
  | _ => exact hpc

/-- CALL pushes the advanced `PC`, which is at most 0x1000; nothing else writes the stack. -/
theorem stackBounded_effect (i : Instr) {s : State} (h : s.Advanced) : (effect i s).StackBounded := by
  obtain ⟨-, hhigh, hstack⟩ := h
  intro j hj
  obtain heq | ⟨nnn, rfl⟩ := effect_stack i s
  · simpa [heq] using hstack j hj
  · simp only [effect, State.setPC_stack, State.push_stack, Vector.getElem_setIfInBounds]
    split
    · exact hhigh
    · exact hstack j hj

/-- Settles O20: after the latch `State.Advanced` holds, and from there an update bounds `PC` and the stack again. -/
theorem stepKeepsPcBounded : Obligations.StepKeepsPcBounded := fun _ _ hs h =>
  step_keeps (P := State.PcBounded) (Q := State.Advanced) (fun _ _ h => h) (fun _ => State.advanced_latch)
    (fun _ _ ⟨_, hhigh, hstack⟩ => ⟨Nat.le_trans hhigh (by decide), hstack⟩)
    (fun i s _ _ h => ⟨effect_pc i s ▸ pcAfter_le i h, stackBounded_effect i h⟩) hs h

/-! ## The stop record, the build, and the base build -/

theorem step_keeps_stopRecorded {s t : State} (hs : s.StopRecorded) (h : step s = .next t) : t.StopRecorded :=
  step_keeps (Q := State.StopRecorded) (fun _ _ _ => by simp [State.StopRecorded]) (fun _ _ h => h)
    (fun _ _ _ => by simp [State.StopRecorded]) (fun _ _ _ _ h => by simpa [State.StopRecorded] using h) hs h

theorem step_keeps_cfg {s t : State} (h : step s = .next t) : t.cfg = s.cfg :=
  step_keeps (P := fun u => u.cfg = s.cfg) (Q := fun u => u.cfg = s.cfg) (fun _ _ h => h) (fun _ _ h => h)
    (fun _ _ h => h) (fun i u _ _ h => (effect_cfg i u).trans h) rfl h

/-- Without `EXT` no instruction that writes `RES` or `FLAGS` is well formed. -/
theorem baseBuildPlain_effect {i : Instr} {s : State} (hwf : WellFormed s.cfg.ext i = true) (h : s.BaseBuildPlain) :
    (effect i s).BaseBuildPlain := by
  intro hext
  rw [effect_cfg] at hext
  rw [hext] at hwf
  obtain ⟨hres, hflags⟩ := h hext
  constructor
  · obtain heq | rfl | rfl := effect_res i s
    · rw [heq, hres]
    · simp [WellFormed] at hwf
    · simp [WellFormed] at hwf
  · obtain heq | ⟨x, rfl⟩ := effect_flags i s
    · rw [heq, hflags]
    · simp [WellFormed] at hwf

theorem step_keeps_baseBuildPlain {s t : State} (hs : s.BaseBuildPlain) (h : step s = .next t) : t.BaseBuildPlain :=
  step_keeps (Q := State.BaseBuildPlain) (fun _ _ h => h) (fun _ _ h => h) (fun _ _ h => h)
    (fun _ _ hwf _ => baseBuildPlain_effect hwf) hs h

/-- Settles O21: three uses of `step_keeps`. -/
theorem stepKeepsTheStopRecordAndTheBuild : Obligations.StepKeepsTheStopRecordAndTheBuild := fun _ _ h =>
  ⟨fun hs => step_keeps_stopRecorded hs h, step_keeps_cfg h, fun hs => step_keeps_baseBuildPlain hs h⟩

/-! ## All the invariants, over every command -/

theorem State.inv_construct (cfg : Config) : (State.construct cfg).Inv where
  ram := Memory.wf_nil _
  display := Screen.shaped_blank 64 32
  stop := by simp [State.StopRecorded, State.construct]
  pc := ⟨(by decide : (0x200 : Word).toNat ≤ 0x10FE), fun j hj => by simp [State.construct]⟩
  base := fun _ => ⟨rfl, rfl⟩

/-- Settles O22: `State.inv_construct`, of which `State.reset` is one case. -/
theorem constructionMeetsTheInvariants : Obligations.ConstructionMeetsTheInvariants := by
  refine ⟨fun cfg => ⟨State.inv_construct cfg, fun k => ?_, rfl⟩, State.inv_construct constructionBuild⟩
  simp only [State.key, State.construct, Vector.getElem?_replicate]
  split <;> rfl

theorem State.Inv.step {s t : State} (hs : s.Inv) (h : Machine.step s = .next t) : t.Inv where
  ram := stepKeepsRamCanonical s t hs.ram h
  display := stepKeepsDisplayShaped s t hs.display h
  stop := step_keeps_stopRecorded hs.stop h
  pc := stepKeepsPcBounded s t hs.pc h
  base := step_keeps_baseBuildPlain hs.base h

theorem State.Inv.writeBytes {s : State} (hs : s.Inv) {a : Nat} {bs : List Byte} (h : a + bs.length ≤ 4096) :
    (s.writeBytes a bs).Inv := by
  rw [State.writeBytes_eq]
  exact ⟨s.ramCanonical_writeBytes a bs hs.ram h, hs.display, hs.stop, hs.pc, hs.base⟩

theorem State.Inv.resetCommand (s : State) : s.resetCommand.Inv :=
  have h := State.inv_construct s.cfg
  ⟨h.ram, h.display, h.stop, h.pc, h.base⟩

/-- Every command keeps the invariants: an image that is not refused ends at 0x1000 at most. -/
theorem State.Inv.after {s : State} (hs : s.Inv) (c : Command) : (s.after c).Inv := by
  cases c with
  | step =>
    obtain ⟨t, ht⟩ := everyStepAnswersANextState.1 s
    rw [State.after_of_next (c := .step) ht]
    exact hs.step ht
  | tick | keyDown | keyUp | clearKey | setPolicy => exact ⟨hs.ram, hs.display, hs.stop, hs.pc, hs.base⟩
  | reset => exact State.Inv.resetCommand s
  | load image =>
    simp only [State.after, State.command, State.load]
    split_ifs with himage
    · exact hs.writeBytes (by omega)
    · exact hs

/-- Settles O23: by induction on the schedule. -/
theorem everyCommandKeepsTheInvariants : Obligations.EveryCommandKeepsTheInvariants := by
  intro s cs
  induction cs generalizing s with
  | nil => exact id
  | cons c rest ih => exact fun hs => ih (s.after c) (hs.after c)

end Sys2Proof.Machine

/-! PROOFS. Control transfer, arithmetic, the index register and the timers, each from the update of its instruction
(41_flow.md, 42_alu.md, 43_index_memory.md, 45_keys_timers.md). -/

namespace Sys2Proof.Machine

/-! ## Control transfer (41_flow.md) -/

/-- Settles O28: the target is the exact sum, at most 0xFFF + 0xFF. -/
theorem offsetJumpGoesToTheSum : Obligations.OffsetJumpGoesToTheSum := by
  intro nnn s
  have hsum := s.toNat_offsetTarget nnn
  have := nnn.isLt
  have := (s.getV 0).isLt
  exact ⟨s.setPC (s.offsetTarget nnn), rfl, hsum, by rw [State.setPC_pc]; omega, rfl, fun _ => rfl⟩

theorem State.push_sp_val {s : State} (a : Word) (h : s.sp.val ≤ 15) : (s.push a).sp.val = s.sp.val + 1 := by
  simp only [State.push_sp, Fin.ofNat]; omega

/-- CALL below the full stack has no fault (41_flow.md R112). -/
theorem exec_call {nnn : Index} {s : State} (h : s.sp.val ≤ 15) :
    exec (.call nnn) s = .next ((s.push s.pc).setPC (absolute nnn)) := by
  refine exec_of_no_fault (if_neg fun hfull => ?_)
  simp [hfull] at h

/-- RET above the empty stack has no fault (41_flow.md R111). -/
theorem exec_ret {s : State} (h : 1 ≤ s.sp.val) : exec .ret s = .next (s.pop.setPC s.top) := by
  refine exec_of_no_fault (if_neg fun hempty => ?_)
  simp [hempty] at h

/-- Settles O29: the push writes the entry at `SP` and no other. -/
theorem callPushesTheReturnAddress : Obligations.CallPushesTheReturnAddress := by
  refine fun nnn s => ⟨fun h => ⟨_, exec_call h, toNat_absolute nnn, State.push_sp_val s.pc h, ?_, fun j hj => ?_,
    rfl, fun _ => rfl⟩, fun h => exec_of_fault (if_pos h)⟩
  · simp [Nat.lt_succ_of_le h]
  · simp [hj.symm]

/-- Settles O30: RET reads the entry below `SP` and keeps the stack. -/
theorem returnTakesTheNewestEntry : Obligations.ReturnTakesTheNewestEntry := by
  refine fun s => ⟨fun h => ⟨_, exec_ret h, ?_, ?_, rfl, fun _ => rfl⟩, fun h => exec_of_fault (if_pos h)⟩
  · have : s.sp.val - 1 < 16 := by omega
    simp [State.top, this]
  · simp only [State.setPC_sp, State.pop_sp, Fin.ofNat]; omega

/-- Settles O31: the entry RET takes is the one CALL pushed, since it stands below the `SP` that CALL left. -/
theorem callThenReturnComesBack : Obligations.CallThenReturnComesBack := by
  intro nnn s t u hs ht hsp hstack
  obtain rfl : (s.push s.pc).setPC (absolute nnn) = t := by simpa [exec_call hs] using ht
  have hpush : (s.push s.pc).sp.val = s.sp.val + 1 := State.push_sp_val s.pc hs
  have husp : u.sp.val = s.sp.val + 1 := (congrArg Fin.val hsp).trans hpush
  refine ⟨_, exec_ret (by omega), ?_, Fin.ext ?_⟩
  · have hentry : u.stack[s.sp.val]? = (s.push s.pc).stack[s.sp.val]? := hstack s.sp.val (hpush ▸ Nat.lt_succ_self _)
    simp only [State.setPC_pc, State.top, husp, Nat.add_sub_cancel, hentry]
    simp [Nat.lt_succ_of_le hs]
  · simp only [State.setPC_sp, State.pop_sp, Fin.ofNat]; omega

theorem State.onlyPC_skipIf (s : State) (c : Bool) : Claims.OnlyPC s (s.skipIf c) (if c then s.pc + 2 else s.pc) := by
  rw [State.skipIf_eq]
  exact s.onlyPC_setPC _

/-- Settles O32: each skip is one conditional write of `PC`. -/
theorem skipsPassOverOneWord : Obligations.SkipsPassOverOneWord := by
  refine fun x y kk s => ⟨⟨_, rfl, ?_⟩, ⟨_, rfl, ?_⟩, ⟨_, rfl, ?_⟩, ⟨_, rfl, ?_⟩⟩
  · simpa using s.onlyPC_skipIf (s.getV x == kk)
  · simpa using s.onlyPC_skipIf (s.getV x != kk)
  · simpa using s.onlyPC_skipIf (s.getV x == s.getV y)
  · simpa using s.onlyPC_skipIf (s.getV x != s.getV y)

/-! ## Loads, arithmetic and logic (42_alu.md) -/

theorem State.onlyReg_setV (s : State) (x : Reg) (b : Byte) : Claims.OnlyReg s (s.setV x b) x b :=
  ⟨s.getV_setV_same x b, fun _ h => s.getV_setV_ne b h, rfl, fun _ => rfl⟩

/-- The result first and the flag last, so `Vx` holds the result unless it is `VF` (42_alu.md R130). -/
theorem State.regAndFlag_setVThenVF (s : State) (x : Reg) (b f : Byte) :
    Claims.RegAndFlag s (s.setVThenVF x b f) x b f :=
  ⟨by simp [State.getV_setVThenVF], fun h => by simp [State.getV_setVThenVF, h],
    fun _ hx hf => s.getV_setVThenVF_ne b f (not_or.mpr ⟨hx, hf⟩), rfl, fun _ => rfl⟩

/-- Settles O33: one write of `Vx` each. -/
theorem loadsAndLogicWriteOnlyVx : Obligations.LoadsAndLogicWriteOnlyVx := fun x _ _ s =>
  ⟨⟨_, rfl, s.onlyReg_setV x _⟩, ⟨_, rfl, s.onlyReg_setV x _⟩, ⟨_, rfl, s.onlyReg_setV x _⟩,
    ⟨_, rfl, s.onlyReg_setV x _⟩, ⟨_, rfl, s.onlyReg_setV x _⟩, ⟨_, rfl, s.onlyReg_setV x _⟩⟩

theorem flagByte_decide (P : Prop) [Decidable P] : flagByte (decide P) = if P then 1 else 0 := by simp [flagByte]

/-- Settles O34: the byte sum is the sum modulo 256, and the flag compares the exact sum. -/
theorem additionWritesSumThenCarry : Obligations.AdditionWritesSumThenCarry := by
  intro x y s
  rw [← flagByte_decide]
  exact ⟨_, rfl, s.regAndFlag_setVThenVF x _ _⟩

/-- The byte difference is the integer difference modulo 256. -/
theorem ofInt_sub_toNat (a b : Byte) : BitVec.ofInt 8 (a.toNat - b.toNat : Int) = a - b := by
  apply BitVec.eq_of_toNat_eq
  have := a.isLt
  have := b.isLt
  rw [BitVec.toNat_ofInt, BitVec.toNat_sub]
  omega

/-- Settles O35: the two subtractions differ in the order of their operands. -/
theorem subtractionsWriteDifferenceThenNotBorrow : Obligations.SubtractionsWriteDifferenceThenNotBorrow := by
  intro x y s
  rw [ofInt_sub_toNat, ofInt_sub_toNat, ← flagByte_decide, ← flagByte_decide]
  exact ⟨⟨_, rfl, s.regAndFlag_setVThenVF x _ _⟩, ⟨_, rfl, s.regAndFlag_setVThenVF x _ _⟩⟩

theorem State.shiftSource_eq (s : State) (x y : Reg) :
    s.shiftSource x y = if s.cfg.shiftSrc = .x then s.getV x else s.getV y := by
  unfold State.shiftSource
  cases s.cfg.shiftSrc <;> rfl

theorem ushiftRight_one_eq_ofNat (b : Byte) : b >>> 1 = BitVec.ofNat 8 (b.toNat / 2) := by
  apply BitVec.eq_of_toNat_eq
  have := b.isLt
  rw [BitVec.toNat_ushiftRight, Nat.shiftRight_eq_div_pow, BitVec.toNat_ofNat]
  omega

theorem shiftLeft_one_eq_ofNat (b : Byte) : b <<< 1 = BitVec.ofNat 8 (b.toNat * 2) := by
  apply BitVec.eq_of_toNat_eq
  rw [BitVec.toNat_shiftLeft, Nat.shiftLeft_eq, BitVec.toNat_ofNat]

/-- A bit as a register value is the number's binary digit. -/
theorem flagByte_getLsbD (b : Byte) (k : Nat) : flagByte (b.getLsbD k) = BitVec.ofNat 8 (b.toNat / 2 ^ k % 2) := by
  rw [BitVec.getLsbD, Nat.testBit_eq_decide_div_mod_eq, flagByte_decide]
  obtain h | h := Nat.mod_two_eq_zero_or_one (b.toNat / 2 ^ k) <;> simp [h]

theorem shrFlag_eq_ofNat (b : Byte) : shrFlag b = BitVec.ofNat 8 (b.toNat % 2) := by
  rw [shrFlag, flagByte_getLsbD, Nat.pow_zero, Nat.div_one]

theorem shlFlag_eq_ofNat (b : Byte) : shlFlag b = BitVec.ofNat 8 (b.toNat / 128) := by
  have : b.toNat / 2 ^ 7 < 2 := by have := b.isLt; omega
  rw [shlFlag, flagByte_getLsbD]
  exact congrArg (BitVec.ofNat 8) (Nat.mod_eq_of_lt this)

/-- Settles O36: the shift source by `SHIFT_SRC`, and each result and flag as a number. -/
theorem shiftsWriteResultThenTheBitShiftedOut : Obligations.ShiftsWriteResultThenTheBitShiftedOut := by
  intro x y s src hsrc
  rw [← State.shiftSource_eq] at hsrc
  subst hsrc
  rw [← ushiftRight_one_eq_ofNat, ← shrFlag_eq_ofNat, ← shiftLeft_one_eq_ofNat, ← shlFlag_eq_ofNat]
  exact ⟨⟨_, rfl, s.regAndFlag_setVThenVF x _ _⟩, ⟨_, rfl, s.regAndFlag_setVThenVF x _ _⟩⟩

/-- Settles O37: one draw used up, then one write of `Vx`. -/
theorem randomByteIsADrawUnderTheMask : Obligations.RandomByteIsADrawUnderTheMask := by
  refine fun x kk s => ⟨s.drawn.setV x (s.drawByte &&& kk), rfl, s.drawn.getV_setV_same x _, ?_, rfl,
    fun _ h => s.drawn.getV_setV_ne _ h, rfl, fun _ => rfl⟩
  rintro rfl
  exact (s.drawn.getV_setV_same x _).trans BitVec.and_zero

/-! ## The index register (43_index_memory.md, 46_extended.md R218) -/

/-- A number of at most 12 bits into `I`. -/
theorem State.onlyI_setI_ofNat (s : State) {a : Nat} (h : a ≤ 0xFFF) : Claims.OnlyI s (s.setI (BitVec.ofNat 12 a)) a :=
  ⟨by rw [State.setI_i, BitVec.toNat_ofNat, Nat.mod_eq_of_lt (by omega)], rfl, fun _ => rfl⟩

/-- Settles O39: the sum fits 12 bits exactly where the table gives no fault. -/
theorem addToIndexIsExactOrStops : Obligations.AddToIndexIsExactOrStops := fun _ s =>
  ⟨fun h => ⟨_, exec_of_no_fault (if_neg (Nat.not_lt.mpr h)), s.onlyI_setI_ofNat h⟩,
    fun h => exec_of_fault (if_pos h)⟩

/-- Settles O40: the largest glyph addresses, 0xFF * 5 and 0x50 + 0xFF * 10, fit 12 bits. -/
theorem glyphLoadsPointIndexAtTheGlyph : Obligations.GlyphLoadsPointIndexAtTheGlyph := by
  intro x s
  have := (s.getV x).isLt
  exact ⟨⟨_, rfl, s.onlyI_setI_ofNat (by omega)⟩, ⟨_, rfl, s.onlyI_setI_ofNat (by omega)⟩⟩

/-! ## The timers (45_keys_timers.md) -/

/-- Settles O50: one write of `Vx`, `DT` or `ST` each. -/
theorem timerInstructionsMoveOneByte : Obligations.TimerInstructionsMoveOneByte := fun x s =>
  ⟨⟨_, rfl, s.onlyReg_setV x s.dt⟩, ⟨s.setDT (s.getV x), rfl, rfl, rfl, fun _ => rfl⟩,
    ⟨s.setST (s.getV x), rfl, rfl, rfl, fun _ => rfl⟩⟩

end Sys2Proof.Machine

/-! PROOFS. Memory transfer, the flag storage and the Load command (43_index_memory.md R154 to R156, 46_extended.md
R219, R220, 70_reset_and_hazards.md R282). -/

namespace Sys2Proof.Machine

/-! ## A stored block -/

theorem State.readMem_writeBytes_inside (s : State) (a : Nat) {bs : List Byte} {k : Nat} (h : k < bs.length) :
    (s.writeBytes a bs).readMem (a + k) = bs[k] := by
  rw [State.readMem_writeBytes, if_pos (Nat.le_add_right a k), Nat.add_sub_cancel_left, List.getElem?_eq_getElem h,
    Option.getD_some]

theorem State.readMem_ramStored_inside (s : State) {bs : List Byte} (i : Index) {k : Nat} (h : k < bs.length) :
    State.readMem { s with ram := s.ramStored bs, i := i } (s.dataAddr k) = bs[k] :=
  (s.readMem_ramStored bs i _).trans (s.readMem_writeBytes_inside (s.dataAddr 0) h)

theorem State.readMem_ramStored_outside (s : State) {bs : List Byte} (i : Index) {a : Nat}
    (h : a < s.dataAddr 0 ∨ s.dataAddr 0 + bs.length ≤ a) :
    State.readMem { s with ram := s.ramStored bs, i := i } a = s.readMem a :=
  (s.readMem_ramStored bs i a).trans (s.readMem_writeBytes_outside h)

/-- A digit is below 10 and so the byte that holds it is exact (43_index_memory.md R154). -/
theorem toNat_decimalDigits (b : Byte) : (decimalDigits b)[0].toNat = b.toNat / 100 ∧
    (decimalDigits b)[1].toNat = b.toNat / 10 % 10 ∧ (decimalDigits b)[2].toNat = b.toNat % 10 := by
  have := b.isLt
  simp only [decimalDigits, List.getElem_cons_zero, List.getElem_cons_succ, BitVec.toNat_ofNat]
  omega

/-- Settles O41: the three digits are the block stored at `I`. -/
theorem decimalDigitsGoToThreeAddresses : Obligations.DecimalDigitsGoToThreeAddresses := by
  intro x s
  obtain ⟨hhundreds, htens, hunits⟩ := toNat_decimalDigits (s.getV x)
  have hread (k : Nat) (hk : k < 3) := s.readMem_ramStored_inside (bs := decimalDigits (s.getV x)) s.i (k := k) hk
  refine ⟨fun h => ⟨{ s with ram := s.ramStored (decimalDigits (s.getV x)) }, exec_of_no_fault (if_neg (by omega)),
      ?_, ?_, ?_, fun a ha => ?_, rfl⟩,
    fun h => exec_of_fault (if_pos (by omega))⟩
  · exact (congrArg BitVec.toNat (hread 0 (by decide))).trans hhundreds
  · exact (congrArg BitVec.toNat (hread 1 (by decide))).trans htens
  · exact (congrArg BitVec.toNat (hread 2 (by decide))).trans hunits
  · refine s.readMem_ramStored_outside (bs := decimalDigits (s.getV x)) s.i ?_
    simp only [State.dataAddr, length_decimalDigits] at ha ⊢
    omega

/-! ## The block transfers -/

section Transfer

variable {x : Reg} {s : State}

/-- Where a transfer has no fault, the new `I` is exact (43_index_memory.md R155, R156). -/
theorem State.toNat_advancedI (h : Claims.faultOf (.ldMemStore x) s = none) : (s.advancedI x).toNat =
    if s.cfg.lsIInc = .xPlusOne then s.i.toNat + x.val + 1 else s.i.toNat := by
  have hmem : ¬ 0xFFF < s.i.toNat + x.val := not_of_fault_eq_none h
  have hadvance : ¬ (s.cfg.lsIInc = .xPlusOne ∧ 0xFFF < s.i.toNat + x.val + 1) :=
    not_of_fault_eq_none ((if_neg hmem).symm.trans h)
  unfold State.advancedI
  split
  · next hinc =>
    have hle : ¬ 0xFFF < s.i.toNat + x.val + 1 := fun hbig => hadvance ⟨hinc, hbig⟩
    rw [BitVec.toNat_ofNat, Nat.mod_eq_of_lt (by omega)]
  · rfl

theorem faultOf_transfer_memory (h : 0xFFF < s.i.toNat + x.val) :
    Claims.faultOf (.ldMemStore x) s = some .memOutOfRange := if_pos h

theorem faultOf_transfer_advance (h : s.i.toNat + x.val = 0xFFF) (hinc : s.cfg.lsIInc = .xPlusOne) :
    Claims.faultOf (.ldMemStore x) s = some .indexOverflow :=
  (if_neg (by omega)).trans (if_pos ⟨hinc, by omega⟩)

end Transfer

/-- Settles O42: the block stored at `I` is that of `V0` to `Vx`. -/
theorem blockStoreWritesTheRegisters : Obligations.BlockStoreWritesTheRegisters := by
  intro x s
  have hlen := s.length_firstV x
  refine ⟨fun h => ⟨_, exec_of_no_fault h, fun j hj => ?_, fun a ha => ?_, State.toNat_advancedI h, rfl⟩,
    fun h => exec_of_fault (faultOf_transfer_memory h), fun h hinc => exec_of_fault (faultOf_transfer_advance h hinc)⟩
  · have hlt : j.val < (s.firstV x).length := by rw [hlen]; exact Nat.lt_succ_of_le hj
    refine (s.readMem_ramStored_inside (s.advancedI x) hlt).trans ?_
    exact Option.some_injective _ ((List.getElem?_eq_getElem hlt).symm.trans (s.firstV_getElem? x j hj))
  · exact s.readMem_ramStored_outside (s.advancedI x) (hlen.symm ▸ ha)

/-- Settles O43: the registers up to `Vx` are the bytes at `I` up, the others are kept. -/
theorem blockLoadFillsTheRegisters : Obligations.BlockLoadFillsTheRegisters := by
  intro x s
  refine ⟨fun h => ⟨_, exec_of_no_fault h, fun j hj => ?_, fun j hj => ?_, State.toNat_advancedI h, rfl, fun _ => rfl⟩,
    fun h => exec_of_fault (faultOf_transfer_memory h), fun h hinc => exec_of_fault (faultOf_transfer_advance h hinc)⟩
  · exact (s.getV_copyUpTo x j _ (s.advancedI x)).trans (if_pos hj)
  · exact (s.getV_copyUpTo x j _ (s.advancedI x)).trans (if_neg (not_le.mpr hj))

/-! ## The flag storage -/

/-- Settles O53: both are `copyUpTo`, from the registers and to them. -/
theorem flagStorageSavesAndRestores : Obligations.FlagStorageSavesAndRestores := by
  intro x s
  refine ⟨fun hx => ⟨⟨_, exec_of_no_fault (if_neg (by omega)), fun j h => ?_, rfl, fun _ => rfl⟩,
    ⟨_, exec_of_no_fault (if_neg (by omega)), fun j hj => ?_, fun j hj => ?_, rfl, fun _ => rfl⟩⟩,
    fun hx => ⟨exec_of_fault (if_pos hx), exec_of_fault (if_pos hx)⟩⟩
  · refine (copyUpTo_getElem s.flags x.val _ j.val h).trans ?_
    rw [s.getV_eq_getElem? j]
    rfl
  · have hj8 : j.val < 8 := Nat.lt_succ_of_le (Nat.le_trans hj hx)
    have hv := (s.getV_copyUpTo x j (fun j => s.flags[j]?.getD 0) s.i).trans (if_pos hj)
    refine Eq.trans ?_ (congrArg some hv.symm)
    rw [Vector.getElem?_eq_getElem hj8, Option.getD_some]
  · exact (s.getV_copyUpTo x j _ s.i).trans (if_neg (not_le.mpr hj))

/-! ## Load (70_reset_and_hazards.md R282) -/

theorem State.load_of_le {s : State} {image : List Byte} (h : image.length ≤ 3584) :
    s.command (.load image) = .next (s.writeBytes 0x200 image) := if_pos h

theorem State.load_of_gt {s : State} {image : List Byte} (h : 3584 < image.length) :
    s.command (.load image) = .refused .loadTooLarge := if_neg (by omega)

/-- Settles O57: an image that is not refused is a block stored at 0x200. -/
theorem loadWritesTheImageOrIsRefused : Obligations.LoadWritesTheImageOrIsRefused := by
  refine fun s image => ⟨fun h => ⟨_, State.load_of_le h, fun k hk => s.readMem_writeBytes_inside 0x200 hk,
    fun a ha => s.readMem_writeBytes_outside ha, ?_⟩, fun h => ⟨State.load_of_gt h, ?_⟩⟩
  · rw [State.writeBytes_eq]
  · rw [State.after, State.load_of_gt h]

end Sys2Proof.Machine

/-! PROOFS. The display: SpriteXor as one flip of each covered pixel, the draws, the scrolls, the switches of the
resolution and the buffer the host sees (44_display.md, 46_extended.md, 60_exceptions.md R257). -/

namespace Sys2Proof.Machine

/-! ## SpriteXor as a list of flips (44_display.md R172) -/

/-- The pixels of a list flipped one after the other, a set one reported: SpriteXor on its set bits alone. -/
def Screen.flipAll (spots : List (Nat × Nat)) (d : Drawing) : Drawing :=
  spots.foldl (fun d p => Screen.xorPixel p.1 p.2 true d) d

/-- The pixels that the set bits of one sprite row fall on, the row standing at `row`. -/
def Screen.rowSpots (width height col0 row : Nat) {w : Nat} (bits : BitVec w) : List (Nat × Nat) :=
  ((List.range w).filter fun k => bits.getLsbD (w - 1 - k)).map fun k => (row % height, (col0 + k) % width)

/-- The pixels that the set bits of a sprite fall on. -/
def Screen.spots (width height col0 row0 : Nat) {w : Nat} (rows : List (BitVec w)) : List (Nat × Nat) :=
  (List.range rows.length).flatMap fun j => Screen.rowSpots width height col0 (row0 + j) (rows.getD j 0)

section Sprite

variable {width height col0 row0 w : Nat}

theorem Screen.xorPixel_eq_ite (pr pc : Nat) (bit : Bool) (d : Drawing) :
    Screen.xorPixel pr pc bit d = if bit then Screen.xorPixel pr pc true d else d := by cases bit <;> rfl

theorem Screen.xorRow_eq_flipAll (r : Nat) (bits : BitVec w) (d : Drawing) :
    Screen.xorRow width height col0 row0 r bits d =
      Screen.flipAll (Screen.rowSpots width height col0 (row0 + r) bits) d := by
  rw [Screen.flipAll, Screen.rowSpots, List.foldl_map, List.foldl_filter, Screen.xorRow]
  simp only [← Screen.xorPixel_eq_ite]

theorem Screen.spots_cons (bits : BitVec w) (rest : List (BitVec w)) :
    Screen.spots width height col0 row0 (bits :: rest) =
      Screen.rowSpots width height col0 row0 bits ++ Screen.spots width height col0 (row0 + 1) rest := by
  simp [Screen.spots, List.range_succ_eq_map, List.flatMap_map, Nat.add_assoc, Nat.add_comm 1]

theorem Screen.xorRowsFrom_eq_flipAll (r : Nat) (rows : List (BitVec w)) (d : Drawing) :
    Screen.xorRowsFrom width height col0 row0 r rows d =
      Screen.flipAll (Screen.spots width height col0 (row0 + r) rows) d := by
  induction rows generalizing r d with
  | nil => rfl
  | cons bits rest ih =>
    rw [Screen.xorRowsFrom, ih, Screen.xorRow_eq_flipAll, Screen.spots_cons, Screen.flipAll, Screen.flipAll,
      Screen.flipAll, List.foldl_append, Nat.add_assoc]

/-- `covers` asks whether the sprite has a set bit on the pixel. -/
theorem Screen.covers_iff_mem (rows : List (BitVec w)) (r c : Nat) :
    Claims.covers width height col0 row0 rows r c = true ↔ (r, c) ∈ Screen.spots width height col0 row0 rows := by
  simp only [Claims.covers, Screen.spots, Screen.rowSpots, List.any_eq_true, List.mem_flatMap, List.mem_map,
    List.mem_filter, Prod.mk.injEq, Bool.and_eq_true, beq_iff_eq]
  constructor
  · rintro ⟨j, hj, k, hk, ⟨hr, hc⟩, hbit⟩
    exact ⟨j, hj, k, ⟨hk, hbit⟩, hr, hc⟩
  · rintro ⟨j, hj, k, ⟨hk, hbit⟩, hr, hc⟩
    exact ⟨j, hj, k, hk, ⟨hr, hc⟩, hbit⟩

/-- Positions less than a whole turn apart do not wrap onto one another. -/
theorem wrap_inj {a m i j : Nat} (hi : i < m) (hj : j < m) (h : (a + i) % m = (a + j) % m) : i = j :=
  (Nat.ModEq.add_left_cancel' a h).eq_of_lt_of_lt hi hj

/-- The row and the column of a pixel a sprite covers are inside the buffer. -/
theorem Screen.lt_of_mem_spots {rows : List (BitVec w)} (hw : w ≤ width) (hlen : rows.length ≤ height) {r c : Nat}
    (h : (r, c) ∈ Screen.spots width height col0 row0 rows) : r < height ∧ c < width := by
  simp only [Screen.spots, Screen.rowSpots, List.mem_flatMap, List.mem_map, List.mem_filter, List.mem_range,
    Prod.mk.injEq] at h
  obtain ⟨j, hj, k, ⟨hk, -⟩, rfl, rfl⟩ := h
  exact ⟨Nat.mod_lt _ (by omega), Nat.mod_lt _ (by omega)⟩

/-- A sprite no larger than the buffer covers no pixel twice. -/
theorem Screen.nodup_spots {rows : List (BitVec w)} (hw : w ≤ width) (hlen : rows.length ≤ height) :
    (Screen.spots width height col0 row0 rows).Nodup := by
  refine List.nodup_flatMap.mpr ⟨fun j _ => ?_, List.nodup_range.pairwise_of_forall_ne fun i hi j hj hij => ?_⟩
  · refine List.Nodup.map_on (fun k hk l hl h => ?_) (List.nodup_range.filter _)
    simp only [List.mem_filter, List.mem_range, Prod.mk.injEq, true_and] at hk hl h
    exact wrap_inj (by omega) (by omega) h
  · rw [List.mem_range] at hi hj
    rintro p hpi hpj
    simp only [Screen.rowSpots, List.mem_map] at hpi hpj
    obtain ⟨k, -, rfl⟩ := hpi
    obtain ⟨l, -, h⟩ := hpj
    exact hij (wrap_inj (by omega) (by omega) (congrArg Prod.fst h).symm)

/-- A set bit that falls inside the buffer changes its own pixel and no other. -/
theorem Screen.pixel_xorPixel {p : Nat × Nat} (hr : p.1 < height) (hc : p.2 < width) {d : Drawing}
    (hd : Screen.shaped width height d.gfx) (r c : Nat) : Screen.pixel (Screen.xorPixel p.1 p.2 true d).gfx r c =
      (Screen.pixel d.gfx r c ^^ decide ((r, c) = p)) := by
  rw [Screen.xorPixel, if_pos rfl, Screen.pixel_flip width height _ r c hd hr hc]
  simp [Prod.ext_iff, Bool.beq_eq_decide_eq, eq_comm]

/-- Flipping distinct pixels of the buffer changes those and no other, and reports whether one was set. -/
theorem Screen.flipAll_spec {spots : List (Nat × Nat)} (hnodup : spots.Nodup)
    (hin : ∀ p ∈ spots, p.1 < height ∧ p.2 < width) {d : Drawing} (hd : Screen.shaped width height d.gfx) :
    (∀ r c, Screen.pixel (Screen.flipAll spots d).gfx r c = (Screen.pixel d.gfx r c ^^ decide ((r, c) ∈ spots))) ∧
    ((Screen.flipAll spots d).collide = true ↔
      d.collide = true ∨ ∃ p ∈ spots, Screen.pixel d.gfx p.1 p.2 = true) := by
  induction spots generalizing d with
  | nil => simp [Screen.flipAll]
  | cons p rest ih =>
    obtain ⟨hp, hrest⟩ := List.nodup_cons.mp hnodup
    obtain ⟨⟨hr, hc⟩, hin'⟩ := List.forall_mem_cons.mp hin
    have hflip := Screen.pixel_xorPixel hr hc hd
    obtain ⟨hpix, hcol⟩ := ih hrest hin' (Screen.shaped_xorPixel width height p.1 p.2 true d hd)
    rw [Screen.flipAll, List.foldl_cons, ← Screen.flipAll]
    constructor
    · intro r c
      rw [hpix, hflip]
      by_cases h : (r, c) = p
      · simp [h, hp]
      · simp [h]
    · have hreport : (Screen.xorPixel p.1 p.2 true d).collide = (d.collide || Screen.pixel d.gfx p.1 p.2) := rfl
      have hkept : ∀ q ∈ rest,
          Screen.pixel (Screen.xorPixel p.1 p.2 true d).gfx q.1 q.2 = Screen.pixel d.gfx q.1 q.2 := fun q hq => by
        have hne : (q.1, q.2) ≠ p := by rintro rfl; exact hp hq
        rw [hflip, decide_eq_false hne, Bool.xor_false]
      rw [hcol, hreport, Bool.or_eq_true, or_assoc, List.exists_mem_cons_iff]
      exact or_congr_right (or_congr_right (exists_congr fun q => and_congr_right fun hq => by rw [hkept q hq]))

/-- A covered pixel is inside the buffer. -/
theorem Screen.lt_of_covers {rows : List (BitVec w)} (hw : w ≤ width) (hlen : rows.length ≤ height) {r c : Nat}
    (h : Claims.covers width height col0 row0 rows r c = true) : r < height ∧ c < width :=
  Screen.lt_of_mem_spots hw hlen ((Screen.covers_iff_mem rows r c).mp h)

theorem Screen.spriteXor_eq_flipAll (rows : List (BitVec w)) (g : Pixels) :
    Screen.spriteXor width height col0 row0 rows g =
      Screen.flipAll (Screen.spots width height col0 row0 rows) { gfx := g, collide := false } :=
  Screen.xorRowsFrom_eq_flipAll 0 rows _

end Sprite

/-- Settles O45: SpriteXor flips the covered pixels, each once. -/
theorem spriteXorIsPointwise : Obligations.SpriteXorIsPointwise := by
  intro width height col0 row0 w rows g hw hlen hg
  refine ⟨Screen.shaped_xorRowsFrom _ _ _ _ _ _ _ hg, ?_⟩
  have hin : ∀ p ∈ Screen.spots width height col0 row0 rows, p.1 < height ∧ p.2 < width :=
    fun _ hp => Screen.lt_of_mem_spots hw hlen hp
  obtain ⟨hpix, hcol⟩ := Screen.flipAll_spec (Screen.nodup_spots hw hlen) hin (d := { gfx := g, collide := false }) hg
  rw [Screen.spriteXor_eq_flipAll]
  refine ⟨fun r c _ _ => ?_, hcol.trans ?_⟩
  · rw [hpix]
    simp only [← Screen.covers_iff_mem, Bool.decide_eq_true]
  · simp [Screen.covers_iff_mem]

/-! ## The draws (44_display.md R171, 46_extended.md R217) -/

/-- From `s` to `t` the sprite has been drawn at column `Vx`, row `Vy`, and nothing else done. -/
def SpriteDrawn (s t : State) (x y : Reg) {w : Nat} (rows : List (BitVec w)) : Prop :=
  (∀ r c, r < s.res.height → c < s.res.width →
    Screen.pixel t.gfx r c = (Screen.pixel s.gfx r c ^^ Claims.drawnOn s x y rows r c)) ∧
  (t.getV 15 = 0 ∨ t.getV 15 = 1) ∧
  (t.getV 15 = 1 ↔ ∃ r c, Claims.drawnOn s x y rows r c = true ∧ Screen.pixel s.gfx r c = true) ∧
  (∀ j, j ≠ 15 → t.getV j = s.getV j) ∧ t.DisplayShaped ∧ { t with v := s.v, gfx := s.gfx } = s ∧
  Claims.SameMemory s t

theorem Res.le_width (r : Res) : 16 ≤ r.width := by cases r <;> decide

theorem Res.le_height (r : Res) : 16 ≤ r.height := by cases r <;> decide

theorem flagByte_zero_or_one (c : Bool) : flagByte c = 0 ∨ flagByte c = 1 := by cases c <;> decide

theorem flagByte_eq_one_iff (c : Bool) : flagByte c = 1 ↔ c = true := by cases c <;> decide

/-- A sprite of at most 16 by 16 fits the buffer of either resolution. -/
theorem State.spriteDrawn_drawSprite {s : State} (h : s.DisplayShaped) (x y : Reg) {w : Nat} {rows : List (BitVec w)}
    (hw : w ≤ 16) (hlen : rows.length ≤ 16) : SpriteDrawn s (s.drawSprite x y rows) x y rows := by
  obtain ⟨hshape, hpix, hcol⟩ := spriteXorIsPointwise s.res.width s.res.height (s.getV x).toNat (s.getV y).toNat w rows
    s.gfx (hw.trans s.res.le_width) (hlen.trans s.res.le_height) h
  have hflag : (s.drawSprite x y rows).getV 15 = flagByte (s.drawing x y rows).collide := State.getV_setV_same _ _ _
  refine ⟨hpix, ?_, ?_, fun j hj => State.getV_setV_ne _ _ hj, hshape, rfl, fun _ => rfl⟩
  · rw [hflag]; exact flagByte_zero_or_one _
  · rw [hflag, flagByte_eq_one_iff]; exact hcol

theorem length_rows8_le (s : State) (n : Count) : (Claims.rows8 s n).length ≤ 16 := by
  simp only [Claims.rows8, List.length_map, List.length_range]; omega

/-- DXYN with its bytes inside `RAM` draws (44_display.md R171). -/
theorem exec_drw {x y : Reg} {n : Count} {s : State} (h : s.i.toNat + n.val ≤ 4096) :
    exec (.drw x y n) s = .next (s.drawSprite x y (Claims.rows8 s n)) := by
  refine exec_of_no_fault (if_neg fun hout => ?_)
  have hpos : n.val ≠ 0 := fun h0 => hout.1 (Fin.ext h0)
  omega

/-- Settles O46: both draws are `drawSprite`, of 8 bits by `n` rows and of 16 by 16. -/
theorem drawsXorTheSpriteAndReportCollision : Obligations.DrawsXorTheSpriteAndReportCollision := by
  refine fun x y n s hshape => ⟨fun h => ⟨_, exec_drw h, ?_⟩, fun h => ⟨_, exec_of_no_fault (if_neg (by omega)), ?_⟩,
    fun hn h => exec_of_fault (if_pos ⟨hn, h⟩), fun h => exec_of_fault (if_pos (by omega))⟩
  · exact State.spriteDrawn_drawSprite hshape x y (by decide) (length_rows8_le s n)
  · exact State.spriteDrawn_drawSprite (rows := Claims.rows16 s) hshape x y (by decide) (by simp [Claims.rows16])

/-- Two buffers of one shape with the same pixels are the same. -/
theorem Screen.ext {w h : Nat} {g g' : Pixels} (hg : Screen.shaped w h g) (hg' : Screen.shaped w h g')
    (hpix : ∀ r c, r < h → c < w → Screen.pixel g r c = Screen.pixel g' r c) : g = g' := by
  refine List.ext_getElem (hg.1.trans hg'.1.symm) fun r hr hr' => ?_
  have hlen := hg.2 g[r] (List.getElem_mem hr)
  have hlen' := hg'.2 g'[r] (List.getElem_mem hr')
  refine List.ext_getElem (hlen.trans hlen'.symm) fun c hc hc' => ?_
  have := hpix r c (hg.1 ▸ hr) (hlen ▸ hc)
  simpa [Screen.pixel, List.getD_eq_getElem?_getD, hr, hr', hc, hc'] using this

/-- Settles O47: the second draw XORs the same pixels again, and finds a covered pixel set where it was clear. -/
theorem drawingTwiceRestoresTheBuffer : Obligations.DrawingTwiceRestoresTheBuffer := by
  intro x y n s hx hy hshape hram
  have hlen := length_rows8_le s n
  obtain ⟨hpix, -, -, hregs, hshape', -, -⟩ := State.spriteDrawn_drawSprite hshape x y (by decide : 8 ≤ 16) hlen
  have hdrawn := State.spriteDrawn_drawSprite hshape' x y (by decide : 8 ≤ 16) hlen
  generalize ht : s.drawSprite x y (Claims.rows8 s n) = t at *
  have hres : t.res = s.res := by rw [← ht]; rfl
  have hrows : Claims.rows8 t n = Claims.rows8 s n := by rw [← ht]; rfl
  have hon : Claims.drawnOn t x y (Claims.rows8 s n) = Claims.drawnOn s x y (Claims.rows8 s n) := by
    funext r c
    rw [Claims.drawnOn, Claims.drawnOn, hres, hregs x hx, hregs y hy]
  obtain ⟨hpix', -, hflag, -, hshape'', -, -⟩ := hdrawn
  refine ⟨t, t.drawSprite x y (Claims.rows8 s n), ht ▸ exec_drw hram, ?_, ?_, ?_⟩
  · rw [← hrows]; exact exec_drw (by rw [← ht]; exact hram)
  · refine Screen.ext (w := s.res.width) (h := s.res.height) (hres ▸ hshape'') hshape fun r c hr hc => ?_
    rw [hpix' r c (hres ▸ hr) (hres ▸ hc), hpix r c hr hc, hon, Bool.xor_assoc, Bool.xor_self, Bool.xor_false]
  · rw [hflag, hon]
    refine exists_congr fun r => exists_congr fun c => and_congr_right fun hcov => ?_
    obtain ⟨hr, hc⟩ := Screen.lt_of_covers (by exact Nat.le_trans (by decide) s.res.le_width)
      (Nat.le_trans hlen s.res.le_height) hcov
    rw [hpix r c hr hc, hcov, Bool.xor_true, Bool.not_eq_true']

/-! ## The scrolls and the switches of the resolution (46_extended.md R211 to R216) -/

theorem State.onlyGfx_build (s : State) (f : Nat → Nat → Bool) :
    Claims.OnlyGfx s (s.setGfx (Screen.build s.res.width s.res.height f)) f :=
  State.onlyGfx_setGfx (Screen.shaped_build _ _ f) fun _ _ hr hc => Screen.pixel_build _ _ f hr hc

/-- Settles O51: each scroll builds the buffer pixel by pixel. -/
theorem scrollsMoveTheBufferAndClearTheRest : Obligations.ScrollsMoveTheBufferAndClearTheRest := fun _ s =>
  ⟨⟨_, rfl, s.onlyGfx_build _⟩, ⟨_, rfl, s.onlyGfx_build _⟩, ⟨_, rfl, s.onlyGfx_build _⟩, ⟨_, rfl, s.onlyGfx_build _⟩⟩

theorem State.setDisplay_self {s : State} {r : Res} (h : s.res = r) : s.setDisplay r s.gfx = s := by rw [← h]; rfl

/-- Settles O52: in the resolution in force the buffer is kept, else it is built from the free pixels. -/
theorem resolutionSwitchesRescaleTheBuffer : Obligations.ResolutionSwitchesRescaleTheBuffer := by
  intro s
  refine ⟨⟨_, execLow_eq s, rfl, rfl, fun h => ?_, fun _ => rfl, fun h => ?_⟩,
    ⟨_, execHigh_eq s, rfl, rfl, fun h => ?_, fun _ => rfl, fun h => ?_⟩⟩
  · rw [State.lowGfx, if_pos h, State.setDisplay_self h]
  · rw [State.lowGfx, if_neg (by simp [h])]
    exact ⟨Screen.shaped_build 64 32 _, fun _ _ hr hc => Screen.pixel_build 64 32 _ hr hc⟩
  · rw [State.highGfx, if_pos h, State.setDisplay_self h]
  · rw [State.highGfx, if_neg (by simp [h])]
    exact ⟨Screen.shaped_build 128 64 _, fun _ _ hr hc => Screen.pixel_build 128 64 _ hr hc⟩

/-! ## The buffer the host sees (60_exceptions.md R257) -/

/-- Element `r * w + c` of rows of `w` elements laid end to end is element `c` of row `r`. -/
theorem getElem?_flatten_of_length_eq {α : Type} {w : Nat} {rows : List (List α)} (hrows : ∀ row ∈ rows, row.length = w)
    {r c : Nat} (hc : c < w) : rows.flatten[r * w + c]? = rows[r]?.bind (·[c]?) := by
  induction rows generalizing r with
  | nil => rfl
  | cons row rest ih =>
    obtain ⟨hrow, hrest⟩ := List.forall_mem_cons.mp hrows
    rw [List.flatten_cons]
    cases r with
    | zero => rw [Nat.zero_mul, Nat.zero_add, List.getElem?_append_left (hrow ▸ hc)]; rfl
    | succ r =>
      rw [List.getElem?_append_right (by rw [hrow, Nat.succ_mul]; omega), hrow,
        show (r + 1) * w + c - w = r * w + c by rw [Nat.succ_mul]; omega, ih hrest]
      rfl

/-- Settles O59: rows of `W` pixels laid end to end. -/
theorem framebufferIsRowMajor : Obligations.FramebufferIsRowMajor := by
  intro s hshape
  obtain ⟨hrows, hcols⟩ := hshape
  constructor
  · have : s.gfx.map List.length = List.replicate s.res.height s.res.width :=
      List.eq_replicate_iff.mpr ⟨by rw [List.length_map, hrows], by simpa using hcols⟩
    simp [State.framebuffer, Screen.flat, List.length_flatten, this, Nat.mul_comm]
  · intro r c hr hc
    have hr' : r < s.gfx.length := hrows ▸ hr
    have hc' : c < (s.gfx[r]).length := (hcols _ (List.getElem_mem hr')).symm ▸ hc
    refine (getElem?_flatten_of_length_eq hcols hc).trans ?_
    simp [Screen.pixel, List.getD_eq_getElem?_getD, hr', hc']

end Sys2Proof.Machine

/-! PROOFS. The keypad, the host's other commands, and the instruction cycle (45_keys_timers.md, 60_exceptions.md,
70_reset_and_hazards.md, 40_cycle.md, 30_encoding.md). -/

namespace Sys2Proof.Machine

/-! ## The keypad (45_keys_timers.md R190 to R193) -/

theorem State.key_keysAfterUse (s : State) (k j : Nat) : (s.keysAfterUse k)[j]?.getD false =
    if s.policy = .smooth ∧ j = k then false else s.key j := by
  rw [← s.key_consumeKey k j, State.consumeKey_eq]; rfl

/-- EX9E and EXA1 on a key number that names a key: one skip and one use of the key. -/
theorem State.keySkipped_spec (s : State) (x : Reg) (wanted : Bool) :
    (s.keySkipped x wanted).pc = (if s.key (s.getV x).toNat = wanted then s.pc + 2 else s.pc) ∧
    (∀ j, (s.keySkipped x wanted).key j =
      if s.policy = .smooth ∧ j = (s.getV x).toNat then false else s.key j) ∧
    { s.keySkipped x wanted with pc := s.pc, keys := s.keys } = s ∧ Claims.SameMemory s (s.keySkipped x wanted) :=
  ⟨by simp only [State.keySkipped, State.skipTarget, beq_iff_eq], fun j => s.key_keysAfterUse _ j, rfl, fun _ => rfl⟩

/-- Settles O48: both skips are `keySkipped`, with the two states of the key that skip. -/
theorem keySkipsReadAndConsumeTheKey : Obligations.KeySkipsReadAndConsumeTheKey := by
  rintro x s k rfl
  refine ⟨fun h => ⟨⟨_, exec_of_no_fault (if_neg (by omega)), s.keySkipped_spec x true⟩,
    ⟨_, exec_of_no_fault (if_neg (by omega)), ?_, (s.keySkipped_spec x false).2⟩⟩,
    fun h => ⟨exec_of_fault (if_pos h), exec_of_fault (if_pos h)⟩⟩
  refine (s.keySkipped_spec x false).1.trans ?_
  cases s.key (s.getV x).toNat <;> rfl

/-- Settles O49: `pressedKey` is the lowest pressed key, and FX0A uses it or goes back. -/
theorem keyWaitTakesTheLowestKeyOrRetries : Obligations.KeyWaitTakesTheLowestKeyOrRetries := by
  refine fun x s => ⟨fun hnone => ?_, fun k hk hkey hlow => ?_⟩
  · refine ⟨_, execLdK_eq s x, ?_⟩
    rw [s.pressedKey_eq_none.mpr hnone]
    exact s.onlyPC_setPC (s.pc - 2)
  · refine ⟨_, execLdK_eq s x, ?_⟩
    rw [(s.pressedKey_eq_some k).mpr ⟨hk, hkey, hlow⟩]
    refine ⟨?_, fun j hj => s.getV_setV_ne _ hj, fun j => s.key_keysAfterUse k j, rfl, fun _ => rfl⟩
    refine (congrArg BitVec.toNat (s.getV_setV_same x _)).trans ?_
    rw [BitVec.toNat_ofNat, Nat.mod_eq_of_lt (by omega)]

theorem State.key_setKey_fin (s : State) (k : Fin 16) (b : Bool) (j : Nat) :
    (s.setKey k.val b).key j = if j = k.val then b else s.key j := by
  rw [State.key_setKey]
  simp only [k.isLt, and_true]

/-- Settles O58: one write of the keypad or of `POLICY` each. -/
theorem keypadCommandsChangeOnlyTheKeypad : Obligations.KeypadCommandsChangeOnlyTheKeypad := fun s k _ =>
  ⟨⟨_, rfl, s.key_setKey_fin k true, rfl⟩, ⟨_, rfl, s.key_setKey_fin k false, rfl⟩, rfl, ⟨_, rfl, rfl, rfl⟩⟩

/-! ## Ticks and Reset (60_exceptions.md R259, 70_reset_and_hazards.md R280) -/

theorem toNat_tickDown (b : Byte) : (tickDown b).toNat = b.toNat - 1 := by
  have := b.isLt
  rw [tickDown, BitVec.toNat_ofNat, Nat.mod_eq_of_lt (by omega)]

/-- Settles O54: by induction on the number of Ticks, each taking 1 off, saturating. -/
theorem ticksCountDownAndSaturate : Obligations.TicksCountDownAndSaturate := by
  intro n
  induction n with
  | zero => exact fun s => ⟨rfl, rfl, rfl⟩
  | succ n ih =>
    intro s
    obtain ⟨hdt, hst, hrest⟩ := ih s.tick
    have hrun : s.runSchedule (List.replicate (n + 1) .tick) = s.tick.runSchedule (List.replicate n .tick) := rfl
    rw [hrun]
    refine ⟨?_, ?_, ?_⟩
    · rw [hdt, State.tick, toNat_tickDown]; omega
    · rw [hst, State.tick, toNat_tickDown]; omega
    · exact congrArg (fun u : State => { u with dt := s.dt, st := s.st }) hrest

/-- What an unlisted address reads as: the fonts at the bottom, 0 elsewhere (20_memory.md R56). -/
theorem ramReset_font (cfg : Config) (a : Nat) (h : a < 80) : ramReset cfg a = cfg.font[a] := dif_pos h

theorem ramReset_bigFont (cfg : Config) (a : Nat) (h : a < 160) :
    ramReset cfg (0x50 + a) = if cfg.ext then cfg.bigFont[a] else 0 := by
  rw [ramReset, dif_neg (by omega), dif_pos (by omega)]
  simp only [show 0x50 + a - 80 = a by omega]

theorem ramReset_above (cfg : Config) (a : Nat) (h : 0xF0 ≤ a) : ramReset cfg a = 0 := by
  rw [ramReset, dif_neg (by omega), dif_neg (by omega)]

/-- Settles O56: the constructed core's values, and `RAM` with nothing listed. -/
theorem resetGivesEveryElementItsResetValue : Obligations.ResetGivesEveryElementItsResetValue := fun s =>
  ⟨s.resetCommand, rfl, fun x => Vector.getElem_replicate x.isLt, rfl, rfl, fun _ h => Vector.getElem_replicate h, rfl,
    rfl, rfl, rfl, rfl, Screen.shaped_blank 64 32, Screen.pixel_blank 64 32, rfl,
    fun _ h => Vector.getElem_replicate h, rfl, rfl, rfl, rfl, rfl, ramReset_font s.cfg, ramReset_bigFont s.cfg,
    ramReset_above s.cfg⟩

/-! ## The instruction cycle (40_cycle.md R90, R91) -/

/-- Settles O4: each word by evaluation of the decoder. -/
theorem sampleWordsDecodeAsTheMapSays : Obligations.SampleWordsDecodeAsTheMapSays := by
  unfold Obligations.SampleWordsDecodeAsTheMapSays
  decide

/-- Settles O8: the decoded bytes are the fetched word, which is what the latch writes into `OP`. -/
theorem stepRunsTheDecodedInstruction : Obligations.StepRunsTheDecodedInstruction := by
  intro s i rest hrun hpc hdec
  obtain ⟨hi, lo, hbytes, hword⟩ := decode_eq_ok_iff.mp hdec
  obtain ⟨rfl, rfl, -⟩ : s.readMem s.pc.toNat = hi ∧ s.readMem (s.pc.toNat + 1) = lo ∧ [] = rest := by
    simpa using hbytes
  rw [step_of_decode hrun (s.fetchable_iff.mpr hpc) hword, ← s.fetchedWord_eq_ofNat]
  rfl

/-- Settles O11: the fetch is not in range, so the step raises the fault from the state it was in. -/
theorem fetchOutOfRangeStopsInPlace : Obligations.FetchOutOfRangeStopsInPlace := by
  intro s hrun hpc
  have hf : s.fetchable = false := by rw [Bool.eq_false_iff, ne_eq, s.fetchable_iff]; omega
  simp only [step, hrun, hf, Bool.false_eq_true, if_false]
  rfl

/-! ## A word of the opcode table at `PC` (logs 18, 19) -/

/-- The running state a word is placed in: `PC` as it was, or at 0x200 where it could not be fetched from. -/
def State.readied (s : State) : State :=
  { s with cpu := .running, stop := none, pc := if s.fetchable then s.pc else 0x200 }

theorem State.placeWord_eq (s : State) (w : Word) :
    s.placeWord w = s.readied.writeBytes s.readied.pc.toNat (bytesOfWord w) := rfl

theorem State.fetchable_placeWord (s : State) (w : Word) : (s.placeWord w).fetchable = true := by
  rw [State.fetchable_iff, State.placeWord_eq, State.writeBytes_pc, State.readied]
  split
  · next hf => exact s.fetchable_iff.mp hf
  · exact (by decide : (0x200 : Word).toNat + 1 ≤ 0xFFF)

/-- The two bytes of a word written at `PC` are the word fetched from there (20_memory.md R51). -/
theorem State.fetchedWord_writeBytes (s : State) (w : Word) :
    (s.writeBytes s.pc.toNat (bytesOfWord w)).fetchedWord = w := by
  have hhi := s.readMem_writeBytes_inside s.pc.toNat (bs := bytesOfWord w) (k := 0) (by simp [bytesOfWord])
  have hlo := s.readMem_writeBytes_inside s.pc.toNat (bs := bytesOfWord w) (k := 1) (by simp [bytesOfWord])
  rw [Nat.add_zero] at hhi
  rw [State.fetchedWord, State.writeBytes_pc, hhi, hlo]
  exact wordOfBytes_bytesOfWord w

theorem State.fetchedWord_placeWord (s : State) (w : Word) : (s.placeWord w).fetchedWord = w :=
  s.readied.fetchedWord_writeBytes w

theorem decodeWord_of_decodeTableWord {nbits w : Nat} {i : Instr} (h : decodeTableWord nbits w = some i) :
    decodeWord true (tableWord nbits w) = some i := by
  unfold decodeTableWord at h
  split at h
  · next j rest hdec =>
    obtain rfl : j = i := by simpa using h
    obtain ⟨hi, lo, hbytes, hword⟩ := decode_eq_ok_iff.mp hdec
    obtain ⟨rfl, rfl, -⟩ : _ = hi ∧ _ = lo ∧ [] = rest := by simpa [bytesOfWord] using hbytes
    rwa [wordOfBytes_bytesOfWord] at hword
  · cases h

/-- Settles O60: the placed word is fetched, and decodes as the table says in a build with `EXT`. -/
theorem placedWordIsTheNextInstruction : Obligations.PlacedWordIsTheNextInstruction := by
  intro s nbits w i hext hdec
  have hword : (s.withFetchWord nbits w).fetchedWord = tableWord nbits w := s.fetchedWord_placeWord _
  have hrun : (s.withFetchWord nbits w).cpu = .running := State.writeBytes_cpu _ _ _
  have hcfg : (s.withFetchWord nbits w).cfg = s.cfg := State.writeBytes_cfg _ _ _
  rw [step_of_decode hrun (s.fetchable_placeWord _)
    (by rw [hword, hcfg, hext]; exact decodeWord_of_decodeTableWord hdec), hword]
  rfl

end Sys2Proof.Machine
